-- ==== Sys2Proof/Word.lean ====
section
/-!
DEFINITION. The words of the console line (spec/10_message_formats.md, R190: fields of one, two and
four bytes) and the plainest arithmetic on counts: rounding a quotient up, saturating, clamping.
Counts, times and levels that the manual compares and adds are natural numbers; only the bytes and the
fields of a frame are bit vectors.
-/

namespace Sys2Proof

/-- One byte of a frame. -/
abbrev Byte := BitVec 8
/-- A field of two bytes. -/
abbrev Half := BitVec 16
/-- A field of four bytes. -/
abbrev Word := BitVec 32

/-- A quotient "rounded up" (00_scope, Numbering and naming conventions). -/
def ceilDiv (n d : Nat) : Nat := (n + (d - 1)) / d

/-- A quantity that "saturates" at `top`: one more, but not above `top`. -/
def satSucc (top n : Nat) : Nat := min top (n + 1)

/-- A field that is "clamped": brought into `lo` to `hi`. -/
def clamp (lo hi n : Nat) : Nat := max lo (min hi n)

/-- The distance of two numbers, "taken without sign". -/
def absDiff (a b : Nat) : Nat := (a - b) + (b - a)

end Sys2Proof
end

