-- ==== Sys2Proof/Config.lean ====
section
/-!
DEFINITION. The constants the manual fixes: sizes of queues and banks, limits of counts, identification
codes. The manual leaves no value of this part open (NOTES.md, Scope and Assumptions), so there is no free
value here. Timer lengths (3 s, 250 ms, 2 s, ...) are not constants of the model: a timer's running out is
a command of the table, and the model keeps only whether the timer runs.
-/

namespace Sys2Proof.Config

/-- Places in the inbound queue (R173). -/
def inboundSize : Nat := 4
/-- Places in the reply queue (R173). -/
def replySize : Nat := 4
/-- Places in the notice queue (R173). -/
def noticeSize : Nat := 32
/-- The largest booth time (R185). -/
def maxTime : Nat := 4294967295
/-- Entries of a bank (R1). -/
def bankSize : Nat := 24
/-- Good periods in a row that make AT_SPEED (R81). -/
def goodPeriods : Nat := 12
/-- Tolerance of p × f (R81). -/
def periodLow : Nat := 960000
def periodHigh : Nat := 1040000
/-- Good samples that establish an arc (R102). -/
def goodSamples : Nat := 3
/-- In-band samples that make STABLE (R104). -/
def stableSamples : Nat := 200
/-- Low samples that lose an arc (R105). -/
def lowSamples : Nat := 5
/-- Units of the feed accumulator in a step (R109). -/
def feedUnit : Nat := 2560
/-- Most steps of a sample, and the most a correction adds (R110, R111). -/
def feedLimit : Nat := 8
/-- Longest trim (R116). -/
def maxTrim : Nat := 16000
/-- Advances of T0′ that SWITCH PROGRAMME may make (R13). -/
def maxAdvances : Nat := 255
/-- The greatest slot index (R18). -/
def maxSlot : Nat := 65535
/-- Consecutive LINKs followed (R9). -/
def maxHops : Nat := 2
/-- MARK of a frame (10.1). -/
def mark : Byte := 0xC7
/-- Vendor code, part code and revision (R184). -/
def vendor : Byte := 0x4D
def part : Byte := 0xB4
def revision : Byte := 3
/-- Good interval range of the mains tracker, µs (R147). -/
def intervalLow : Nat := 7000
def intervalHigh : Nat := 11000
/-- Good intervals that lock the mains tracker (R148). -/
def lockRun : Nat := 8

end Sys2Proof.Config
end

