-- ==== Sys2Proof/Syntax.lean ====
section
/-!
DEFINITION. The names of the manual (screens, projectors, states, causes, reasons) as inductive types,
and `Instr`: one constructor for every row of spec/opcode_table.json, the commands this block takes.

A request of the console carries its TAG and its body fields as they stand in the frame (bit vectors:
a field outside its numbering is for the owner to refuse). An event that one block hands another, an
input edge and a timer running out carry what their rules say they carry.
-/

namespace Sys2Proof

/-- Screens 1 to 4; auditorium s belongs to screen s (00_scope, Booth arrangement). -/
inductive Screen where
  | s1 | s2 | s3 | s4
  deriving DecidableEq, Repr

/-- Projectors 1 to 8; lamp n and port shutter n belong to projector n. -/
inductive Proj where
  | p1 | p2 | p3 | p4 | p5 | p6 | p7 | p8
  deriving DecidableEq, Repr

/-- A screen's two projectors. -/
inductive Side where
  | a | b
  deriving DecidableEq, Repr

/-- The number of a screen (or auditorium) in messages. -/
def Screen.num : Screen → Nat
  | .s1 => 1 | .s2 => 2 | .s3 => 3 | .s4 => 4

/-- The number of a projector (or lamp, or shutter) in messages. -/
def Proj.num : Proj → Nat
  | .p1 => 1 | .p2 => 2 | .p3 => 3 | .p4 => 4 | .p5 => 5 | .p6 => 6 | .p7 => 7 | .p8 => 8

def Screen.all : List Screen := [.s1, .s2, .s3, .s4]
def Proj.all : List Proj := [.p1, .p2, .p3, .p4, .p5, .p6, .p7, .p8]

/-- Screen s has projector 2s−1 as side A and projector 2s as side B (00_scope, R2). -/
def Screen.proj : Screen → Side → Proj
  | .s1, .a => .p1 | .s1, .b => .p2
  | .s2, .a => .p3 | .s2, .b => .p4
  | .s3, .a => .p5 | .s3, .b => .p6
  | .s4, .a => .p7 | .s4, .b => .p8

def Proj.screen : Proj → Screen
  | .p1 => .s1 | .p2 => .s1 | .p3 => .s2 | .p4 => .s2
  | .p5 => .s3 | .p6 => .s3 | .p7 => .s4 | .p8 => .s4

def Proj.side : Proj → Side
  | .p1 => .a | .p2 => .b | .p3 => .a | .p4 => .b
  | .p5 => .a | .p6 => .b | .p7 => .a | .p8 => .b

def Side.other : Side → Side
  | .a => .b | .b => .a

/-- The two programme banks of a screen (R1). -/
inductive BankId where
  | b0 | b1
  deriving DecidableEq, Repr

def BankId.other : BankId → BankId
  | .b0 => .b1 | .b1 => .b0

/-- Entry states (R3). -/
inductive EntryState where
  | empty | loaded | confirmed | armed | onScreen | runningOut | done | active
  deriving DecidableEq, Repr

/-- A lighting point of a reel: a frame offset and a preset (R2). -/
structure LightPoint where
  offset : Nat
  preset : Nat
  deriving DecidableEq, Repr

/-- The fields of a REEL (R2); `lp`, `fm`, `fc` are Lp, Fm, Fc. -/
structure Reel where
  side : Side
  lp : Nat
  fm : Nat
  fc : Nat
  title : Nat
  points : List LightPoint
  deriving DecidableEq, Repr

/-- The kinds of a programme entry with their fields (R2). -/
inductive EntryKind where
  | empty
  | reel (r : Reel)
  | interval (duration preset : Nat)
  | link (target : Nat)
  | finish
  deriving DecidableEq, Repr

/-- Screen states (R25). -/
inductive ScreenState where
  | idle | preparing | showing | ending | interval | gap | halted
  deriving DecidableEq, Repr

/-- PREPARING kinds (R25). -/
inductive PrepKind where
  | start | cont | resume
  deriving DecidableEq, Repr

/-- Halt reasons (R43). -/
inductive HaltReason where
  | filmBreak | stall | lamp | trimOut | runUpFail | shutter | fire | estop
  deriving DecidableEq, Repr

/-- Resume points (R43). -/
inductive ResumePoint where
  | picture | reel | after
  deriving DecidableEq, Repr

/-- Cue progress (R52). -/
inductive CueProgress where
  | none | motorFired | changeoverFired
  deriving DecidableEq, Repr

/-- Trim policy (R27, R124). -/
inductive TrimPolicy where
  | hold | run
  deriving DecidableEq, Repr

/-- Cue mode (R93). -/
inductive CueMode where
  | counted | sensed
  deriving DecidableEq, Repr

/-- The two cues of a reel (R88). -/
inductive Cue where
  | motor | changeover
  deriving DecidableEq, Repr

/-- How a cue fired, CONSOLE standing in CHANGEOVER notices only (10.3). -/
inductive FiredAs where
  | sensed | counted | console
  deriving DecidableEq, Repr

/-- Transport states (R77). -/
inductive TransportState where
  | stopped | runUp | atSpeed
  deriving DecidableEq, Repr

/-- Lamp states (R95). -/
inductive LampState where
  | dark | striking | warming | stable | failed
  deriving DecidableEq, Repr

/-- The source of an EXTINGUISH (R98). -/
inductive ExtSource where
  | console | show_
  deriving DecidableEq, Repr

/-- Causes of a change of lamp state (R98), NONE standing before the first (R95). -/
inductive LampCause where
  | none | struck | arcEstablished | stable | noStrike | arcLost
  | extinguished (src : ExtSource)
  | fire | exhaust | trimOut | trimSet
  deriving DecidableEq, Repr

/-- Why an arc loss was not restruck (R95, R106). -/
inductive Withheld where
  | off | noTrim | exhaust | fire
  deriving DecidableEq, Repr

/-- Strike phases (R95). -/
inductive StrikePhase where
  | attempt | coolOff
  deriving DecidableEq, Repr

/-- Shutter states (R155). -/
inductive ShutterState where
  | dropped | raising | raised
  deriving DecidableEq, Repr

/-- Drop reasons (R155). -/
inductive DropReason where
  | power | break_ | fire | console | fault | link
  deriving DecidableEq, Repr

/-- Causes of a set veto (R160). -/
inductive VetoCause where
  | power | filmBreak | stall | fire | estop
  deriving DecidableEq, Repr

/-- Reasons of a fire state (R163). -/
inductive FireReason where
  | input | portLink | alarm
  deriving DecidableEq, Repr

/-- The reason of a BSU extinguish (R108). -/
inductive BsuReason where
  | fire | exhaust
  deriving DecidableEq, Repr

/-- A film break or a stall, as the BSU hands it to the SHC (R161). -/
inductive BreakKind where
  | filmBreak | stall
  deriving DecidableEq, Repr

/-- The ranks of a lighting source table (R134). -/
inductive Rank where
  | fire | halt | console | show_
  deriving DecidableEq, Repr

/-- The two ranks a screen's SHC writes (R33, R135). -/
inductive ShowRank where
  | show_ | halt
  deriving DecidableEq, Repr

/-- The three channels of an auditorium (7.1). -/
inductive Channel where
  | house | aisle | stage
  deriving DecidableEq, Repr

/-- The two rate straps (R174); `true` is closed. -/
structure Straps where
  strap1 : Bool
  strap2 : Bool
  deriving DecidableEq, Repr

/-- The switch-type inputs of the booth (section 4.1, R154). -/
inductive SwitchInput where
  | cueSensor (p : Proj) | loopSwitch (p : Proj) | shutterUp (p : Proj)
  | fire | estop | exhaust
  deriving DecidableEq, Repr

/-- Who asks an ALC to strike or extinguish: the console, by a request with its TAG and lamp byte, or
the SHC of the lamp's screen (R99, R107). -/
inductive LampAsker where
  | console (tag lamp : Byte)
  | shc (p : Proj)
  deriving DecidableEq, Repr

/-- The body of SET SCREEN after the screen byte, in the order of 10.4. -/
structure ScreenFields where
  f : Byte
  l0 : Half
  cueMode : Byte
  w : Byte
  allowance : Half
  policy : Byte
  grace : Half
  limit : Byte
  preShow : Byte
  brk : Byte
  fin : Byte
  deriving DecidableEq, Repr

/-- The body of SET LAMP after the lamp byte, in the order of 10.4. -/
structure LampFields where
  vset : Half
  d : Byte
  kf : Byte
  band : Byte
  b : Byte
  inom : Byte
  imin : Byte
  lead : Half
  limit : Byte
  margin : Half
  auto : Byte
  deriving DecidableEq, Repr

/-- The commands of this block: one constructor per row of spec/opcode_table.json, in the table's order.
A `Nat` called `count` is the frame count an event carries; `time` operands of pulses are the µs at which
the pulse is taken, `time` of a booth second the booth time it carries. -/
inductive Instr where
  -- power-on, BOOTH RESET and the requests (chapters 1 to 9; bodies as 10.4)
  | powerOn (straps : Straps)
  | boothReset (tag force : Byte)
  | boothResetMade (straps : Straps)
  | identify (tag : Byte)
  | quiet (tag setting : Byte)
  | setClock (tag : Byte) (time : Word)
  | readClock (tag : Byte)
  | setScreen (tag screen : Byte) (fields : ScreenFields)
  | setLamp (tag lamp : Byte) (fields : LampFields)
  | setAuditorium (tag aud floor : Byte)
  | setPreset (tag aud preset house aisle stage : Byte) (fade : Half)
  | writeEntry (tag screen index kind : Byte) (area : List Byte)
  | clearStaged (tag screen : Byte)
  | readEntry (tag screen bank index : Byte)
  | switchProgramme (tag screen : Byte) (t0 tc : Word) (np : Half)
  | cancelSwitch (tag screen : Byte)
  | confirmReel (tag screen bank index confirm : Byte)
  | withdrawConfirmation (tag screen bank index : Byte)
  | start (tag screen : Byte)
  | resume (tag screen : Byte)
  | abort (tag screen : Byte)
  | changeNow (tag screen : Byte)
  | strike (asker : LampAsker)
  | extinguish (asker : LampAsker)
  | setTrim (tag lamp : Byte) (length : Half)
  | setLights (tag aud mode preset house aisle stage : Byte) (fade : Half)
  | releaseLights (tag aud : Byte)
  | raiseShutter (tag proj : Byte)
  | dropShutter (tag proj : Byte)
  | raiseAlarm (tag : Byte)
  | clearFire (tag : Byte)
  | clearEstop (tag : Byte)
  | readScreen (tag screen part : Byte)
  | readProjector (tag proj : Byte)
  | readLamp (tag lamp part : Byte)
  | readAuditorium (tag aud part : Byte)
  | readSafety (tag part : Byte)
  -- the console line (chapter 9)
  | byteReceived (byte : Byte) (stopAtMark : Bool)
  | gapTimerExpiry
  | lineBreak
  | lineReturnsToMark
  | takeFrame
  | frameStart
  | frameSent
  -- the Booth Clock and its events
  | secondTimerExpiry
  | boothSecondEvent (sc : Screen) (time : Nat)
  | clockSetEvent (sc : Screen) (old new : Nat)
  -- the Transport Monitor (chapter 4)
  | motorOnCommand (p : Proj)
  | motorStop (p : Proj)
  | cueWindowOpen (p : Proj) (cue : Cue) (centre : Nat)
  | cueWindowClose (p : Proj)
  | tachPulse (p : Proj) (time : Nat)
  | markEdge (p : Proj)
  | loopOpeningEdge (p : Proj)
  | loopClosingEdge (p : Proj)
  | runUpTimerExpiry (p : Proj)
  | stallTimerExpiry (p : Proj)
  -- events that reach an SHC (chapters 2 and 3)
  | atSpeedEvent (p : Proj) (count : Nat)
  | cueFiredEvent (p : Proj) (cue : Cue) (how : FiredAs) (count : Nat)
  | pictureEndReached (p : Proj) (count : Nat)
  | runoutReached (p : Proj) (count : Nat)
  | runUpFail (p : Proj) (count : Nat)
  | lampStateChange (p : Proj) (new old : LampState) (cause : LampCause)
  | setTrimAccepted (p : Proj)
  -- transport events that reach the BSU, and what it hands on (chapter 8)
  | filmBreak (p : Proj) (count : Nat)
  | stall (p : Proj) (count : Nat)
  | refusedStart (p : Proj)
  | breakOrStallEvent (p : Proj) (kind : BreakKind) (count : Nat)
  | shutterDropped (p : Proj) (reason : DropReason)
  | fireEvent (sc : Screen)
  | emergencyStopEvent (sc : Screen)
  -- the Arc Lamp Controller (chapters 5 and 6)
  | arcSample (p : Proj) (vm im : Nat)
  | strikerTimerExpiry (p : Proj)
  | attemptTimerExpiry (p : Proj)
  | coolOffTimerExpiry (p : Proj)
  | bsuExtinguish (p : Proj) (reason : BsuReason)
  -- the House Light Controller and the Mains Phase Tracker (chapter 7)
  | post (sc : Screen) (rank : ShowRank) (preset : Nat)
  | haltRelease (sc : Screen)
  | fireWrite (sc : Screen)
  | fireRelease (sc : Screen)
  | fadeTick (sc : Screen)
  | zeroCrossPulse (time : Nat)
  | silenceTimerExpiry
  | lockChange (sc : Screen) (locked : Bool)
  | halfCycleEvent (sc : Screen) (halfPeriod : Nat)
  | firingTimerExpiry (sc : Screen) (ch : Channel)
  -- the Booth Safety Unit's inputs and timers (chapter 8), and the switch inputs (4.1)
  | fireInputEdge (asserted : Bool)
  | emergencyStopInputEdge (asserted : Bool)
  | exhaustProvingEdge (proven : Bool)
  | shutterUpSensorEdge (p : Proj) (up : Bool)
  | provingTimerExpiry
  | lossTimerExpiry
  | raiseTimerExpiry (p : Proj)
  | inputSettling (input : SwitchInput) (s1 s2 s3 : Bool)
  | cueSensorClearEdge (p : Proj)
  deriving DecidableEq, Repr

end Sys2Proof
end

