-- ==== Sys2Proof/Machine/State.lean ====
section
/-!
DEFINITION. Everything the manual gives the part to hold, as plain data: eight kinds of block (00_scope,
Blocks), the queue of commands that wait, and the events that blocks have raised to one another and that
have not been taken yet (R189 names them). Reset values stand beside each record.
-/

namespace Sys2Proof.Machine

/-! ## Tables by screen and by projector -/

/-- One `α` for each screen. -/
structure Quad (α : Type) where
  s1 : α
  s2 : α
  s3 : α
  s4 : α
  deriving DecidableEq, Repr

/-- One `α` for each projector. -/
structure Oct (α : Type) where
  p1 : α
  p2 : α
  p3 : α
  p4 : α
  p5 : α
  p6 : α
  p7 : α
  p8 : α
  deriving DecidableEq, Repr

def Quad.get {α : Type} (q : Quad α) : Screen → α
  | .s1 => q.s1 | .s2 => q.s2 | .s3 => q.s3 | .s4 => q.s4

def Quad.set {α : Type} (q : Quad α) (i : Screen) (x : α) : Quad α :=
  match i with
  | .s1 => { q with s1 := x } | .s2 => { q with s2 := x }
  | .s3 => { q with s3 := x } | .s4 => { q with s4 := x }

def Quad.const {α : Type} (x : α) : Quad α := ⟨x, x, x, x⟩

def Oct.get {α : Type} (o : Oct α) : Proj → α
  | .p1 => o.p1 | .p2 => o.p2 | .p3 => o.p3 | .p4 => o.p4
  | .p5 => o.p5 | .p6 => o.p6 | .p7 => o.p7 | .p8 => o.p8

def Oct.set {α : Type} (o : Oct α) (i : Proj) (x : α) : Oct α :=
  match i with
  | .p1 => { o with p1 := x } | .p2 => { o with p2 := x }
  | .p3 => { o with p3 := x } | .p4 => { o with p4 := x }
  | .p5 => { o with p5 := x } | .p6 => { o with p6 := x }
  | .p7 => { o with p7 := x } | .p8 => { o with p8 := x }

def Oct.const {α : Type} (x : α) : Oct α := ⟨x, x, x, x, x, x, x, x⟩

/-! ## Results, replies and notices (R180, R191, R194) -/

/-- NOT READY reasons (10.3); FIRE LOCK stands as 16 in CHANGEOVER and ENTRY notices only. -/
inductive NotReady where
  | clock | estop | notThreaded | lampFailed | trimShort | noTrim | exhaust | shutter
  | loop | transport | sensor | notArmed | lamp | veto | inputAsserted | fireLock
  deriving DecidableEq, Repr

/-- Result codes (R180). -/
inductive Result where
  | done | accepted | already | busy
  | notReady (reason : NotReady)
  | fireLock | pending | badField | noSuch | badProgramme | cycleShort | baseError
  | unknownKind | badLength | checkError | queueFull
  deriving DecidableEq, Repr

/-- A reply: its KIND and TAG, the result, the adjusted flag of the SET kinds and the reply data (R191). -/
structure Reply where
  kind : Byte
  tag : Byte
  result : Result
  adjusted : Option Bool
  data : List Byte
  deriving DecidableEq, Repr

/-- Line rates (R174). -/
inductive LineRate where
  | baud1200 | baud2400 | baud4800 | baud9600
  deriving DecidableEq, Repr

/-- RESTART causes (10.3). -/
inductive RestartCause where
  | power | boothReset
  deriving DecidableEq, Repr

/-- SCREEN STATE causes (10.5). -/
inductive ScreenCause where
  | start | cont | resume | pictureOn | pictureEnd | intervalEnd | halt | furtherReason | abort
  | performanceEnd
  deriving DecidableEq, Repr

/-- ENTRY reasons (10.5). -/
inductive EntryReason where
  | confirmationLost | confirmationMoved | armed | trimShort | filmMoved | strikeRefused | done
  deriving DecidableEq, Repr

/-- SAFETY events (10.5). -/
inductive SafetyEvent where
  | fireLatched | fireReasonAdded | fireCleared | estopLatched | estopCleared
  | exhaustProven | exhaustLost
  deriving DecidableEq, Repr

/-- MAINS causes (10.5). -/
inductive MainsCause where
  | locked | interval | silence
  deriving DecidableEq, Repr

/-- SCHEDULE outcomes (10.5). -/
inductive SchedOutcome where
  | missed | skipped | blocked
  deriving DecidableEq, Repr

/-- SCHEDULE reasons (10.5); BLOCKED carries none (log entry 35). -/
inductive SchedReason where
  | overrun | notThreaded | lampFailed | trimShort | fireLock | lateSwitch | clockSet
  deriving DecidableEq, Repr

/-- PROGRAMME FAULT reasons (R10). -/
inductive FaultReason where
  | emptyEntry | selfLink | linkChain
  deriving DecidableEq, Repr

/-- The origin of a lighting request (R134). -/
inductive Origin where
  | preset (n : Nat) | explicit | alarm
  deriving DecidableEq, Repr

/-- The fields of each notice after the booth time (10.5, R195). An `Option` is absent where 10.7 marks the
field not meaningful. -/
inductive NoticeBody where
  | restart (cause : RestartCause) (rate : LineRate)
  | noticesLost (count : Nat)
  | screenState (sc : Screen) (new old : ScreenState) (cause : ScreenCause) (current title count : Nat)
      (prep : Option PrepKind) (first : Option HaltReason) (reasonProj : Option Proj)
      (point : Option ResumePoint) (added : Option HaltReason)
  | cue (sc : Screen) (p : Proj) (cue : Cue) (how : FiredAs) (centre count : Nat) (diff : Int)
  | changeover (sc : Screen) (made : Bool) (how : FiredAs) (reason : Option NotReady)
      (outIndex outTitle nOut : Nat) (inIndex : Option Nat) (inTitle nIn : Nat) (slip : Int)
  | entry (sc : Screen) (bank : BankId) (index : Nat) (p : Proj) (title : Nat) (reason : EntryReason)
      (short : Bool) (count : Nat) (lampReason : Option NotReady)
  | lamp (p : Proj) (new old : LampState) (cause : LampCause) (attempts : Option Nat)
      (withheld : Option Withheld) (vm im remaining : Nat)
  | trimLow (sc : Screen) (p : Proj) (bank : BankId) (index title count runFrames avail needed
      remaining : Nat)
  | shutter (p : Proj) (new old : ShutterState) (reason : Option DropReason)
  | safety (event : SafetyEvent) (latched input link alarm : Bool) (first : Option FireReason)
      (linkProj : Option Proj) (estop exhaust : Bool) (added : Option FireReason)
  | mains (locked : Bool) (cause : MainsCause) (halfPeriod interval : Nat)
  | switch (sc : Screen) (taken : Bool) (t0 tc np : Nat)
  | schedule (sc : Screen) (outcome : SchedOutcome) (reason : Option SchedReason) (count time : Nat)
  | performanceEnd (sc : Screen) (count : Nat)
  | lights (sc : Screen) (before after : Option Rank) (house aisle stage fade : Nat)
      (origin : Option Origin)
  | programmeFault (sc : Screen) (bank : BankId) (fromIndex atIndex : Nat) (reason : FaultReason)
  deriving DecidableEq, Repr

/-- A notice with the booth time at which it was raised (R173). -/
structure Notice where
  time : Nat
  body : NoticeBody
  deriving DecidableEq, Repr

/-! ## The Console Link (R173) -/

/-- Receiver states. -/
inductive RxState where
  | hunt | inFrame | brk
  deriving DecidableEq, Repr

/-- A partial frame: the LEN byte once held and the bytes received after it, oldest first. -/
structure PartialFrame where
  len : Option Byte
  bytes : List Byte
  deriving DecidableEq, Repr

/-- A frame of the inbound queue: its KIND, its TAG and its body. -/
structure Frame where
  kind : Byte
  tag : Byte
  body : List Byte
  deriving DecidableEq, Repr

/-- The frame in transmission: the oldest reply (`isReply`) or the oldest notice, which stays at the head of
its queue until its SUM byte has been sent, and the count of its bytes sent. -/
structure Transmission where
  isReply : Bool
  sent : Nat
  deriving DecidableEq, Repr

/-- The CNL's record. `reserved` counts the places of the reply queue that R179 reserves for requests handed to
their owners and not yet answered. -/
structure Cnl where
  rate : LineRate
  rx : RxState
  partialFrame : Option PartialFrame
  gapTimer : Bool
  inbound : List Frame
  replies : List Reply
  reserved : Nat
  notices : List Notice
  tx : Option Transmission
  quiet : Bool
  lost : Nat
  resetPending : Bool
  deriving DecidableEq, Repr

/-! ## The Booth Clock (R185) -/

structure Bck where
  time : Nat
  isSet : Bool
  secondTimer : Bool
  deriving DecidableEq, Repr

/-! ## The Show Controller (R1, R18, R26, R27, R43, R52, R93) -/

/-- A programme entry (R2, R3). -/
structure Entry where
  kind : EntryKind
  state : EntryState
  short : Bool
  deriving DecidableEq, Repr

/-- The schedule record (R18). -/
structure Schedule where
  t0 : Nat
  tc : Nat
  np : Nat
  k : Nat
  miss : Nat
  suspended : Bool
  wait : Option Nat
  preStrike : Bool
  deriving DecidableEq, Repr

/-- The pending-switch record (R13). -/
structure PendingSwitch where
  t0 : Nat
  tc : Nat
  np : Nat
  deriving DecidableEq, Repr

/-- The screen setup (R27, R93). -/
structure ScreenSetup where
  f : Nat
  l0 : Nat
  cueMode : CueMode
  w : Nat
  allowance : Nat
  policy : TrimPolicy
  grace : Nat
  limit : Nat
  preShow : Nat
  brk : Nat
  fin : Nat
  deriving DecidableEq, Repr

/-- The halt record (R43); `reasonProj` is absent for FIRE and ESTOP. -/
structure HaltRecord where
  first : HaltReason
  reasonProj : Option Proj
  point : ResumePoint
  index : Nat
  count : Nat
  time : Nat
  further : List HaltReason
  deriving DecidableEq, Repr

/-- All that one SHC owns. `motorA`, `motorB` are the SHC's last motor commands to its two projectors, which
R41 reads of a film break and of a stall. -/
structure Shc where
  bank0 : List Entry
  bank1 : List Entry
  active : BankId
  schedule : Option Schedule
  switch : Option PendingSwitch
  state : ScreenState
  current : Nat
  prep : PrepKind
  countdown : Nat
  preStrike : Bool
  douserA : Bool
  douserB : Bool
  sound : Side
  muted : Bool
  perfCount : Nat
  halt : Option HaltRecord
  progress : CueProgress
  strikeFrame : Option Nat
  trimHold : Option Nat
  motorA : Bool
  motorB : Bool
  setup : ScreenSetup
  deriving DecidableEq, Repr

/-! ## The Transport Monitor (R77, R88) -/

structure CueWindow where
  cue : Cue
  centre : Nat
  w : Nat
  mode : CueMode
  deriving DecidableEq, Repr

/-- The transport record. `lastPulse` is the time of the last tach pulse counted since the motor-on command
(R81 measures from it); an accepted level is absent while the input is unsettled (R76), and beside each stands its
sample history, the last three samples, oldest first (R75). -/
structure Trm where
  motor : Bool
  state : TransportState
  count : Nat
  runLength : Option Nat
  lastPeriod : Option Nat
  lastPulse : Option Nat
  goodRun : Nat
  runUpTimer : Bool
  stallTimer : Bool
  window : Option CueWindow
  stray : Nat
  strayOverflow : Bool
  loopClosed : Option Bool
  cueMark : Option Bool
  loopSamples : List Bool
  cueSamples : List Bool
  deriving DecidableEq, Repr

/-! ## The Arc Lamp Controller (R95, R96, R113, R116, R125) -/

structure LampSetup where
  vset : Nat
  d : Nat
  kf : Nat
  band : Nat
  b : Nat
  inom : Nat
  imin : Nat
  lead : Nat
  limit : Nat
  margin : Nat
  auto : Bool
  deriving DecidableEq, Repr

/-- The service record (R125). -/
structure ServiceRecord where
  screen : Screen
  bank : BankId
  index : Nat
  title : Nat
  runFrames : Nat
  f : Nat
  lowReported : Bool
  deriving DecidableEq, Repr

/-- The lamp record, its timers, the steps given to the feed stepper at the last sample, the setup and the
service record. `trim` is T and `consumed` is C. -/
structure Alc where
  state : LampState
  lastCause : LampCause
  withheld : Option Withheld
  attempts : Nat
  limitInForce : Nat
  phase : StrikePhase
  goodRun : Nat
  inBand : Nat
  lowRun : Nat
  acc : Nat
  vm : Nat
  im : Nat
  trim : Nat
  consumed : Nat
  strikerTimer : Bool
  attemptTimer : Bool
  coolOffTimer : Bool
  steps : Nat
  setup : LampSetup
  service : Option ServiceRecord
  deriving DecidableEq, Repr

/-! ## The House Light Controller (R131, R132, R134, R145, R152) -/

structure Preset where
  house : Nat
  aisle : Nat
  stage : Nat
  fade : Nat
  deriving DecidableEq, Repr

/-- A request in a rank (R134). -/
structure LightRequest where
  house : Nat
  aisle : Nat
  stage : Nat
  fade : Nat
  origin : Origin
  deriving DecidableEq, Repr

/-- A fade record (R131). -/
structure Fade where
  fine : Nat
  start : Nat
  target : Nat
  ticks : Nat
  time : Nat
  deriving DecidableEq, Repr

/-- A channel: its fade record, the firing delay last computed (absent: not fired), its firing timer, and the
count of pulses given on its firing output (the model's own record of that output). -/
structure ChannelRec where
  fade : Fade
  delay : Option Nat
  timer : Bool
  pulses : Nat
  deriving DecidableEq, Repr

structure Hlc where
  presets : List Preset
  fire : Option LightRequest
  halt : Option LightRequest
  console : Option LightRequest
  show_ : Option LightRequest
  house : ChannelRec
  aisle : ChannelRec
  stage : ChannelRec
  floor : Nat
  deriving DecidableEq, Repr

/-! ## The Mains Phase Tracker (R147) -/

structure Mpt where
  locked : Bool
  previous : Option Nat
  run : List Nat
  lastInterval : Option Nat
  halfPeriod : Nat
  silenceTimer : Bool
  deriving DecidableEq, Repr

/-! ## The Booth Safety Unit (R155, R160, R163, R167, R169) -/

/-- A shutter record with the accepted level and the sample history of its up sensor (R75, R154, R155). -/
structure Shutter where
  state : ShutterState
  reason : DropReason
  raiseTimer : Bool
  up : Option Bool
  upSamples : List Bool
  deriving DecidableEq, Repr

/-- The fire record, present while the fire state is latched. -/
structure FireRecord where
  first : FireReason
  input : Bool
  link : Bool
  alarm : Bool
  time : Nat
  linkProj : Option Proj
  deriving DecidableEq, Repr

/-- The BSU. `fire` is the fire state with its record, `estop` the emergency-stop state with the booth time of
its latch; a veto is clear when absent; an input level is absent while unsettled, and beside each stands its
sample history (R75). -/
structure Bsu where
  fire : Option FireRecord
  estop : Option Nat
  proven : Bool
  provingTimer : Bool
  lossTimer : Bool
  fireInput : Option Bool
  estopInput : Option Bool
  exhaustInput : Option Bool
  fireSamples : List Bool
  estopSamples : List Bool
  exhaustSamples : List Bool
  shutters : Oct Shutter
  vetoes : Oct (Option VetoCause)
  deriving DecidableEq, Repr

/-! ## The pins -/

/-- The levels that the booth holds at the input pins that have a level: the two rate straps (R174), the receive
line, at mark or at space (R177, R187), and the switch-type inputs (section 4.1), `true` being MARK, CLOSED, UP,
ASSERTED and PROVEN (R75, R154). No block owns them and no reset changes them (log entry 23). -/
structure Pins where
  straps : Straps
  lineMark : Bool
  cue : Oct Bool
  loop : Oct Bool
  up : Oct Bool
  fire : Bool
  estop : Bool
  exhaust : Bool
  deriving DecidableEq, Repr

/-! ## The whole part -/

/-- The state of the part. `pending` is the queue of commands that wait, oldest first; `events` are the
events raised by one block to another and not yet taken, oldest first. -/
structure State where
  pending : List Instr
  events : List Instr
  pins : Pins
  cnl : Cnl
  bck : Bck
  shc : Quad Shc
  trm : Oct Trm
  alc : Oct Alc
  hlc : Quad Hlc
  mpt : Mpt
  bsu : Bsu
  deriving DecidableEq, Repr

/-- Reasons the machine stops with a fault. There is none: the manual gives every command an effect, and no
command of this part raises a fault, so no constructor is needed and no run can end in one (safe). -/
inductive Fault where
  deriving DecidableEq, Repr

/-- Reasons a command has no meaning. -/
inductive Refusal where
  /-- Raised by `exec`'s arm alone, for a command not modelled yet; safe: the run ends there. No command of
  this model is refused. -/
  | notModelled (mnemonic : String)
  deriving DecidableEq, Repr

/-- The three outcomes of a command. -/
abbrev Outcome := Host.Outcome State Fault Refusal

/-! ## Reset values -/

/-- R174: the rate the straps select. -/
def LineRate.ofStraps : Straps → LineRate
  | ⟨false, false⟩ => .baud1200
  | ⟨true, false⟩ => .baud2400
  | ⟨false, true⟩ => .baud4800
  | ⟨true, true⟩ => .baud9600

/-- R1: an EMPTY entry. -/
def Entry.blank : Entry := ⟨.empty, .empty, false⟩

/-- R27, R93: defaults of the screen setup. -/
def ScreenSetup.default : ScreenSetup :=
  { f := 24, l0 := 192, cueMode := .sensed, w := 24, allowance := 240, policy := .hold, grace := 300,
    limit := 4, preShow := 0, brk := 7, fin := 6 }

/-- R1, R18, R25, R26, R27, R52. -/
def Shc.reset : Shc :=
  { bank0 := List.replicate Config.bankSize Entry.blank,
    bank1 := List.replicate Config.bankSize Entry.blank,
    active := .b0, schedule := none, switch := none,
    state := .idle, current := 0, prep := .start, countdown := 0, preStrike := false,
    douserA := false, douserB := false, sound := .a, muted := true, perfCount := 0, halt := none,
    progress := .none, strikeFrame := none, trimHold := none, motorA := false, motorB := false,
    setup := ScreenSetup.default }

/-- R76, R77. -/
def Trm.reset : Trm :=
  { motor := false, state := .stopped, count := 0, runLength := none, lastPeriod := none,
    lastPulse := none, goodRun := 0, runUpTimer := false, stallTimer := false, window := none,
    stray := 0, strayOverflow := false, loopClosed := none, cueMark := none, loopSamples := [], cueSamples := [] }

/-- R113. -/
def LampSetup.default : LampSetup :=
  { vset := 350, d := 5, kf := 32, band := 20, b := 12, inom := 70, imin := 25, lead := 60, limit := 3,
    margin := 120, auto := true }

/-- R95, R96, R116, R126. -/
def Alc.reset : Alc :=
  { state := .dark, lastCause := .none, withheld := none, attempts := 0, limitInForce := 3,
    phase := .attempt, goodRun := 0, inBand := 0, lowRun := 0, acc := 0, vm := 0, im := 0, trim := 0,
    consumed := 0, strikerTimer := false, attemptTimer := false, coolOffTimer := false, steps := 0,
    setup := LampSetup.default, service := none }

/-- R132. -/
def Preset.reset : Preset := ⟨255, 255, 255, 30⟩

/-- R131; no channel has been fired (R153). -/
def ChannelRec.reset : ChannelRec :=
  { fade := ⟨65280, 65280, 65280, 0, 0⟩, delay := none, timer := false, pulses := 0 }

/-- R131, R132, R134, R145. -/
def Hlc.reset : Hlc :=
  { presets := List.replicate 8 Preset.reset, fire := none, halt := none, console := none, show_ := none,
    house := ChannelRec.reset, aisle := ChannelRec.reset, stage := ChannelRec.reset, floor := 64 }

/-- R147. -/
def Mpt.reset : Mpt :=
  { locked := false, previous := none, run := [], lastInterval := none, halfPeriod := 0,
    silenceTimer := false }

/-- R76, R155. -/
def Shutter.reset : Shutter := ⟨.dropped, .power, false, none, []⟩

/-- R76, R154, R155, R160, R163, R167, R169. -/
def Bsu.reset : Bsu :=
  { fire := none, estop := none, proven := false, provingTimer := false, lossTimer := false,
    fireInput := none, estopInput := none, exhaustInput := none,
    fireSamples := [], estopSamples := [], exhaustSamples := [],
    shutters := Oct.const Shutter.reset, vetoes := Oct.const (some .power) }

/-- R173, R174: the CNL after a reset that reads `straps` and whose RESTART notice is `restart`. -/
def Cnl.reset (straps : Straps) (restart : Notice) : Cnl :=
  { rate := LineRate.ofStraps straps, rx := .hunt, partialFrame := none,
    gapTimer := false, inbound := [], replies := [], reserved := 0, notices := [restart], tx := none,
    quiet := false, lost := 0, resetPending := false }

/-- R185: booth time 0, clock not set, the second timer in its first second. -/
def Bck.reset : Bck := ⟨0, false, true⟩

/-- The part right after power-on with its pins at `pins` (R187): every block at its reset values and the
RESTART notice with cause POWER in the notice queue. -/
def State.poweredOn (pins : Pins) : State :=
  { pending := [], events := [], pins := pins,
    cnl := Cnl.reset pins.straps ⟨0, .restart .power (LineRate.ofStraps pins.straps)⟩,
    bck := Bck.reset,
    shc := Quad.const Shc.reset, trm := Oct.const Trm.reset, alc := Oct.const Alc.reset,
    hlc := Quad.const Hlc.reset, mpt := Mpt.reset, bsu := Bsu.reset }

/-- The pins that `State.reset` finds: both straps open, the line idle at mark, and every switch-type input at
CLEAR, OPEN, DOWN, RELEASED or UNPROVEN (log entry 3). -/
def Pins.quiet : Pins :=
  { straps := ⟨false, false⟩, lineMark := true, cue := Oct.const false, loop := Oct.const false,
    up := Oct.const false, fire := false, estop := false, exhaust := false }

/-- The machine right after reset: powered on with its pins as `Pins.quiet` (log entry 3). -/
def State.reset : State := State.poweredOn Pins.quiet

end Sys2Proof.Machine
end

