-- ==== Sys2Proof/Machine/Ops.lean ====
section
/-!
DEFINITION. The named operations over the state that every chapter uses: changing one block's record,
the pins and the switch-type inputs (R75), raising and taking events, raising notices (R182), forming replies
(R179, R180), and reading and changing programme entries (R1, R3).
-/

namespace Sys2Proof.Machine

/-! ## One block's record -/

def State.modCnl (s : State) (f : Cnl → Cnl) : State := { s with cnl := f s.cnl }
def State.modBck (s : State) (f : Bck → Bck) : State := { s with bck := f s.bck }
def State.modMpt (s : State) (f : Mpt → Mpt) : State := { s with mpt := f s.mpt }
def State.modBsu (s : State) (f : Bsu → Bsu) : State := { s with bsu := f s.bsu }
def State.modShc (s : State) (sc : Screen) (f : Shc → Shc) : State :=
  { s with shc := s.shc.set sc (f (s.shc.get sc)) }
def State.modHlc (s : State) (sc : Screen) (f : Hlc → Hlc) : State :=
  { s with hlc := s.hlc.set sc (f (s.hlc.get sc)) }
def State.modTrm (s : State) (p : Proj) (f : Trm → Trm) : State :=
  { s with trm := s.trm.set p (f (s.trm.get p)) }
def State.modAlc (s : State) (p : Proj) (f : Alc → Alc) : State :=
  { s with alc := s.alc.set p (f (s.alc.get p)) }

def State.modPins (s : State) (f : Pins → Pins) : State := { s with pins := f s.pins }

/-! ## Switch-type inputs (R75, R154) -/

/-- The level at the pin of an input. -/
def Pins.level (x : Pins) : SwitchInput → Bool
  | .cueSensor p => x.cue.get p
  | .loopSwitch p => x.loop.get p
  | .shutterUp p => x.up.get p
  | .fire => x.fire
  | .estop => x.estop
  | .exhaust => x.exhaust

def Pins.setLevel (x : Pins) (level : Bool) : SwitchInput → Pins
  | .cueSensor p => { x with cue := x.cue.set p level }
  | .loopSwitch p => { x with loop := x.loop.set p level }
  | .shutterUp p => { x with up := x.up.set p level }
  | .fire => { x with fire := level }
  | .estop => { x with estop := level }
  | .exhaust => { x with exhaust := level }

def Bsu.modShutter (b : Bsu) (p : Proj) (f : Shutter → Shutter) : Bsu :=
  { b with shutters := b.shutters.set p (f (b.shutters.get p)) }

/-- The accepted level of an input, absent while it is unsettled. -/
def State.inputLevel (s : State) : SwitchInput → Option Bool
  | .cueSensor p => (s.trm.get p).cueMark
  | .loopSwitch p => (s.trm.get p).loopClosed
  | .shutterUp p => (s.bsu.shutters.get p).up
  | .fire => s.bsu.fireInput
  | .estop => s.bsu.estopInput
  | .exhaust => s.bsu.exhaustInput

/-- The sample history of an input, oldest first. -/
def State.samples (s : State) : SwitchInput → List Bool
  | .cueSensor p => (s.trm.get p).cueSamples
  | .loopSwitch p => (s.trm.get p).loopSamples
  | .shutterUp p => (s.bsu.shutters.get p).upSamples
  | .fire => s.bsu.fireSamples
  | .estop => s.bsu.estopSamples
  | .exhaust => s.bsu.exhaustSamples

/-- The filter of the block that owns the input keeps the history `h`. -/
def State.keepSamples (s : State) (h : List Bool) : SwitchInput → State
  | .cueSensor p => s.modTrm p fun t => { t with cueSamples := h }
  | .loopSwitch p => s.modTrm p fun t => { t with loopSamples := h }
  | .shutterUp p => s.modBsu (·.modShutter p fun x => { x with upSamples := h })
  | .fire => s.modBsu fun b => { b with fireSamples := h }
  | .estop => s.modBsu fun b => { b with estopSamples := h }
  | .exhaust => s.modBsu fun b => { b with exhaustSamples := h }

/-- R75: the pin and the samples of a clean change to `level`, which is accepted at the second sample after it.
An edge given as a command has this history behind it (log entry 23). -/
def State.cleanChange (s : State) (i : SwitchInput) (level : Bool) : State :=
  (s.modPins (·.setLevel level i)).keepSamples [!level, level, level] i

/-! ## Events between blocks

An event a block raises waits in `events` until it is taken (log entry 1). Taking one removes its first
occurrence; a command that no block has raised is an event from outside and leaves the others waiting. -/

/-- A block raises an event: it waits after those raised before it. -/
def State.emit (s : State) (e : Instr) : State := { s with events := s.events ++ [e] }

def State.emitAll (s : State) (es : List Instr) : State := { s with events := s.events ++ es }

/-- The event `e` is taken. -/
def State.taken (s : State) (e : Instr) : State := { s with events := s.events.erase e }

/-! ## Notices -/

/-- R182: a notice enters at the tail if fewer than 32 wait; otherwise it is lost and counted. -/
def Cnl.raise (c : Cnl) (n : Notice) : Cnl :=
  if c.notices.length < Config.noticeSize then { c with notices := c.notices ++ [n] }
  else { c with lost := satSucc 255 c.lost }

/-- R182: a place of the notice queue has been freed; with notices lost, NOTICES LOST enters it. -/
def Cnl.placeFreed (c : Cnl) (time : Nat) : Cnl :=
  if c.lost = 0 then c
  else { c with notices := c.notices ++ [⟨time, .noticesLost c.lost⟩], lost := 0 }

/-- A block raises a notice (R182, R194: it carries the booth time). -/
def State.note (s : State) (b : NoticeBody) : State := s.modCnl (·.raise ⟨s.bck.time, b⟩)

/-! ## Replies -/

/-- A reply is formed (R179): it fills the place reserved for it. The record counts the reserved places and does not say
whose they are, so the reply to a request that no frame brought fills a place reserved for a request not yet decided
where there is one; with none reserved a reply takes a free place, or is not kept when there is none (log entry 2). -/
def Cnl.fill (c : Cnl) (r : Reply) : Cnl :=
  if 0 < c.reserved then { c with reserved := c.reserved - 1, replies := c.replies ++ [r] }
  else if c.replies.length < Config.replySize then { c with replies := c.replies ++ [r] }
  else c

/-- R180: the reply to a request of kind `kind`. -/
def State.reply (s : State) (kind tag : Byte) (result : Result) (adjusted : Option Bool)
    (data : List Byte) : State :=
  s.modCnl (·.fill ⟨kind + 0x80, tag, result, adjusted, data⟩)

/-- A reply with no adjusted flag and no data. -/
def State.answer (s : State) (kind tag : Byte) (result : Result) : State :=
  s.reply kind tag result none []

/-- A reply of a SET kind, which carries the adjusted flag. -/
def State.answerSet (s : State) (kind tag : Byte) (result : Result) (adjusted : Bool) : State :=
  s.reply kind tag result (some adjusted) []

/-! ## Programme entries -/

def Shc.bank (c : Shc) : BankId → List Entry
  | .b0 => c.bank0 | .b1 => c.bank1

def Shc.setBank (c : Shc) (b : BankId) (es : List Entry) : Shc :=
  match b with
  | .b0 => { c with bank0 := es } | .b1 => { c with bank1 := es }

/-- The entry at `i`; outside the bank there is none, which reads as EMPTY. -/
def entryAt (es : List Entry) (i : Nat) : Entry := es.getD i Entry.blank

/-- The entry at `i` of the active bank (R1). -/
def Shc.entry (c : Shc) (i : Nat) : Entry := entryAt (c.bank c.active) i

def Shc.modEntry (c : Shc) (b : BankId) (i : Nat) (f : Entry → Entry) : Shc :=
  c.setBank b ((c.bank b).modify i f)

/-- An entry enters a state other than ARMED: the short flag is cleared (R3). -/
def Entry.become (e : Entry) (st : EntryState) : Entry := { e with state := st, short := false }

/-- Moves entry `i` of the active bank into state `st` (not ARMED). -/
def Shc.enter (c : Shc) (i : Nat) (st : EntryState) : Shc := c.modEntry c.active i (·.become st)

/-- The first reel from index `i` on whose entry is in state `st` and which `q` admits. -/
def findReel (st : EntryState) (q : Reel → Bool) : List Entry → Nat → Option (Nat × Reel)
  | [], _ => none
  | e :: es, i =>
    match e.kind with
    | .reel r => if e.state = st ∧ q r = true then some (i, r) else findReel st q es (i + 1)
    | _ => findReel st q es (i + 1)

/-- The active bank's reel in state `st` (R25: at most one is ON_SCREEN and at most one ARMED). -/
def Shc.holding (c : Shc) (st : EntryState) : Option (Nat × Reel) :=
  findReel st (fun _ => true) (c.bank c.active) 0

/-- The active bank's reel of the projector of side `side` in state `st`. -/
def Shc.holdingOn (c : Shc) (st : EntryState) (side : Side) : Option (Nat × Reel) :=
  findReel st (fun r => r.side = side) (c.bank c.active) 0

/-- The title code of entry `i` of the active bank, 0 where it is no REEL (R195). -/
def Shc.titleAt (c : Shc) (i : Nat) : Nat :=
  match (c.entry i).kind with
  | .reel r => r.title
  | _ => 0

/-- The frame count of the projector of entry `i` of the active bank, 0 where it has none (R43, R195). -/
def State.countAt (s : State) (sc : Screen) (i : Nat) : Nat :=
  match ((s.shc.get sc).entry i).kind with
  | .reel r => (s.trm.get (sc.proj r.side)).count
  | _ => 0

/-- The SHC's last motor command to the projector of a side. -/
def Shc.motor (c : Shc) : Side → Bool
  | .a => c.motorA | .b => c.motorB

def Shc.setMotor (c : Shc) (side : Side) (on : Bool) : Shc :=
  match side with
  | .a => { c with motorA := on } | .b => { c with motorB := on }

/-- The SHC's douser command for a side (R26). -/
def Shc.douser (c : Shc) : Side → Bool
  | .a => c.douserA | .b => c.douserB

def Shc.setDouser (c : Shc) (side : Side) (isOpen : Bool) : Shc :=
  match side with
  | .a => { c with douserA := isOpen } | .b => { c with douserB := isOpen }

/-- Both douser commands closed and the sound muted (R30, R42, R49). -/
def Shc.blackout (c : Shc) : Shc := { c with douserA := false, douserB := false, muted := true }

/-- The SHC commands a motor on: the command goes to the TRM (R78). -/
def State.motorOn (s : State) (p : Proj) : State :=
  (s.modShc p.screen (·.setMotor p.side true)).emit (.motorOnCommand p)

/-- The SHC commands a motor off: the stop goes to the TRM (R79). -/
def State.motorOff (s : State) (p : Proj) : State :=
  (s.modShc p.screen (·.setMotor p.side false)).emit (.motorStop p)

/-- The SHC posts a preset to the SHOW rank of its auditorium (R33). -/
def State.postShow (s : State) (sc : Screen) (preset : Nat) : State := s.emit (.post sc .show_ preset)

/-- The SHC posts a preset to the HALT rank (R33). -/
def State.postHalt (s : State) (sc : Screen) (preset : Nat) : State := s.emit (.post sc .halt preset)

/-- The notice ENTRY about entry `i` of bank `b` (10.5, R195: the count is the projector's frame count). -/
def State.noteEntry (s : State) (sc : Screen) (b : BankId) (i : Nat) (r : Reel) (reason : EntryReason)
    (short : Bool) (lampReason : Option NotReady) : State :=
  s.note (.entry sc b i (sc.proj r.side) r.title reason short (s.trm.get (sc.proj r.side)).count lampReason)

end Sys2Proof.Machine
end

