-- ==== Sys2Proof/Machine/Flags.lean ====
section
/-!
DEFINITION. The signals the part computes from its records and does not store: the motor hold, the douser
outputs and their terms, the lamp outputs, the solenoids, the output levels of the house lights, the burn
time available.
-/

namespace Sys2Proof

/-- The lamp is STRIKING, WARMING or STABLE. -/
def LampState.lit : LampState → Bool
  | .striking | .warming | .stable => true
  | .dark | .failed => false

end Sys2Proof

namespace Sys2Proof.Machine

/-! ## Booth safety -/

/-- The booth fire state is latched (R163). -/
def State.fireLatched (s : State) : Bool := s.bsu.fire.isSome

/-- The emergency-stop state is latched (R167). -/
def State.estopLatched (s : State) : Bool := s.bsu.estop.isSome

/-- R162: the motor hold is read from the two latches. -/
def State.motorHold (s : State) : Bool := s.fireLatched || s.estopLatched

/-- R155: the solenoid is energised while RAISING or RAISED. -/
def Shutter.solenoid (x : Shutter) : Bool :=
  match x.state with
  | .dropped => false
  | _ => true

/-! ## The douser gate (R72) -/

def State.douserCommand (s : State) (p : Proj) : Bool := (s.shc.get p.screen).douser p.side
def State.vetoClear (s : State) (p : Proj) : Bool := (s.bsu.vetoes.get p).isNone
def State.lampStable (s : State) (p : Proj) : Bool := (s.alc.get p).state = .stable
def State.atSpeed (s : State) (p : Proj) : Bool := (s.trm.get p).state = .atSpeed
def State.shutterRaised (s : State) (p : Proj) : Bool := (s.bsu.shutters.get p).state = .raised

/-- R72: the douser output is open exactly when the six terms hold. -/
def State.douserOpen (s : State) (p : Proj) : Bool :=
  s.douserCommand p && s.vetoClear p && s.lampStable p && s.atSpeed p && s.shutterRaised p && !s.fireLatched

/-- R26: the side whose sound the screen's output carries, none while muted. -/
def Shc.soundOut (c : Shc) : Option Side := if c.muted then none else some c.sound

/-! ## Lamps -/

/-- R96: the contactor is closed while the lamp is STRIKING, WARMING or STABLE. -/
def Alc.contactor (a : Alc) : Bool := a.state.lit

/-- R96, R101: the striker is closed while the striker timer of an attempt runs. -/
def Alc.striker (a : Alc) : Bool := a.strikerTimer

/-- R96: the direction output of the feed stepper holds the forward direction at all times. -/
def Alc.stepperForward (_ : Alc) : Bool := true

/-- R116: the remaining trim T − C. -/
def Alc.remaining (a : Alc) : Nat := a.trim - a.consumed

/-- R119: the burn time available A. -/
def Alc.avail (a : Alc) : Nat := a.remaining * 256 / (a.setup.b * a.setup.inom)

/-! ## House lights -/

/-- R131: the output level formed from a fine level. -/
def outputLevel (fine : Nat) : Nat := (fine + 128) / 256

def Hlc.channel (h : Hlc) : Channel → ChannelRec
  | .house => h.house | .aisle => h.aisle | .stage => h.stage

def Hlc.setChannel (h : Hlc) (ch : Channel) (x : ChannelRec) : Hlc :=
  match ch with
  | .house => { h with house := x } | .aisle => { h with aisle := x } | .stage => { h with stage := x }

/-- R131, R145: a channel's output level, AISLE's not below the aisle floor. -/
def Hlc.output (h : Hlc) (ch : Channel) : Nat :=
  match ch with
  | .aisle => max (outputLevel h.aisle.fade.fine) h.floor
  | .house => outputLevel h.house.fade.fine
  | .stage => outputLevel h.stage.fade.fine

/-- The highest rank that is not empty (R134). -/
def Hlc.winner (h : Hlc) : Option Rank :=
  if h.fire.isSome then some .fire
  else if h.halt.isSome then some .halt
  else if h.console.isSome then some .console
  else if h.show_.isSome then some .show_
  else none

def Hlc.rank (h : Hlc) : Rank → Option LightRequest
  | .fire => h.fire | .halt => h.halt | .console => h.console | .show_ => h.show_

def Hlc.setRank (h : Hlc) (r : Rank) (x : Option LightRequest) : Hlc :=
  match r with
  | .fire => { h with fire := x } | .halt => { h with halt := x }
  | .console => { h with console := x } | .show_ => { h with show_ := x }

end Sys2Proof.Machine
end

