-- ==== Sys2Proof/Machine/Operands.lean ====
section
/-!
DEFINITION. The operand forms: the numbers of screens, projectors, banks, indexes and presets a request
names (R190), bytes of a field area (R192), the order of bytes of a field (R190), the codes of 10.3, the
majority of an input's samples (R75).
-/

namespace Sys2Proof.Machine

/-! ## Numbers that name an object (R190) -/

def screenOf (b : Byte) : Option Screen :=
  match b.toNat with
  | 1 => some .s1 | 2 => some .s2 | 3 => some .s3 | 4 => some .s4
  | _ => none

def projOf (b : Byte) : Option Proj :=
  match b.toNat with
  | 1 => some .p1 | 2 => some .p2 | 3 => some .p3 | 4 => some .p4
  | 5 => some .p5 | 6 => some .p6 | 7 => some .p7 | 8 => some .p8
  | _ => none

def bankOf (b : Byte) : Option BankId :=
  match b.toNat with
  | 0 => some .b0 | 1 => some .b1
  | _ => none

def indexOf (b : Byte) : Option Nat := if b.toNat < Config.bankSize then some b.toNat else none

def presetOf (b : Byte) : Option Nat := if b.toNat < 8 then some b.toNat else none

/-! ## Bytes of a field, most significant first (R190) -/

def bytes1 (n : Nat) : List Byte := [BitVec.ofNat 8 n]
def bytes2 (n : Nat) : List Byte := [BitVec.ofNat 8 (n / 256), BitVec.ofNat 8 n]
def bytes4 (n : Nat) : List Byte :=
  [BitVec.ofNat 8 (n / 16777216), BitVec.ofNat 8 (n / 65536), BitVec.ofNat 8 (n / 256), BitVec.ofNat 8 n]
/-- A signed field of one byte and of four (R190: two's complement). -/
def bytesInt1 (i : Int) : List Byte := [BitVec.ofInt 8 i]
def bytesInt4 (i : Int) : List Byte := bytes4 (BitVec.ofInt 32 i).toNat
/-- A flag (R190). -/
def flag (b : Bool) : List Byte := [if b then 1 else 0]
/-- An entry index that may name nothing (R190). -/
def indexByte : Option Nat → List Byte
  | some i => bytes1 i
  | none => [0xFF]
def opt1 {α : Type} (f : α → Nat) : Option α → List Byte
  | some x => bytes1 (f x)
  | none => [0]

/-- The byte at `i` of a field area. -/
def byteAt (area : List Byte) (i : Nat) : Nat := (area.getD i 0).toNat
/-- The two-byte field at `i` of a field area. -/
def halfAt (area : List Byte) (i : Nat) : Nat := 256 * byteAt area i + byteAt area (i + 1)

/-! ## The field area of an entry (R192) with the field checks of R4 -/

def sideOf : Nat → Option Side
  | 0 => some .a | 1 => some .b
  | _ => none

/-- The lighting points of a REEL field area: as many as the point count says. -/
def pointsOf (area : List Byte) : List LightPoint :=
  List.take (byteAt area 9)
    [⟨halfAt area 10, byteAt area 12⟩, ⟨halfAt area 13, byteAt area 15⟩]

/-- Offsets within 0 to Lp, presets 0 to 7, offsets not decreasing (R4). -/
def pointsOk (lp : Nat) : List LightPoint → Bool
  | [] => true
  | [x] => x.offset ≤ lp && x.preset ≤ 7
  | x :: y :: _ => x.offset ≤ lp && x.preset ≤ 7 && y.offset ≤ lp && y.preset ≤ 7 && x.offset ≤ y.offset

/-- The ranges of a REEL's fields (R2) as one field check (R4). -/
def reelOk (r : Reel) : Bool :=
  1000 ≤ r.lp && 0 < r.fm && r.fm < r.fc && r.fc ≤ r.lp && pointsOk r.lp r.points

def reelOfArea (area : List Byte) : Option Reel :=
  match sideOf (byteAt area 0) with
  | none => none
  | some side =>
    let r : Reel := ⟨side, halfAt area 1, halfAt area 3, halfAt area 5, halfAt area 7, pointsOf area⟩
    if byteAt area 9 ≤ 2 ∧ reelOk r = true then some r else none

/-- The kind and fields WRITE ENTRY asks for; absent where R4 refuses BAD FIELD. -/
def kindOfArea (kind : Nat) (area : List Byte) : Option EntryKind :=
  match kind with
  | 0 => some .empty
  | 1 => (reelOfArea area).map .reel
  | 2 => if halfAt area 0 ≤ 7200 ∧ byteAt area 2 ≤ 7 then some (.interval (halfAt area 0) (byteAt area 2)) else none
  | 3 => if byteAt area 0 < Config.bankSize then some (.link (byteAt area 0)) else none
  | 4 => some .finish
  | _ => none

def pad16 (l : List Byte) : List Byte := l ++ List.replicate (16 - l.length) 0

/-- The field area READ ENTRY returns (R192): every byte the kind does not use is 0. -/
def areaOf : EntryKind → List Byte
  | .empty => pad16 []
  | .finish => pad16 []
  | .interval d p => pad16 (bytes2 d ++ bytes1 p)
  | .link t => pad16 (bytes1 t)
  | .reel r =>
    pad16 (bytes1 (match r.side with | .a => 0 | .b => 1) ++ bytes2 r.lp ++ bytes2 r.fm ++ bytes2 r.fc ++
      bytes2 r.title ++ bytes1 r.points.length ++
      (r.points.map (fun x => bytes2 x.offset ++ bytes1 x.preset)).flatten)

/-! ## Codes (10.3) -/

end Sys2Proof.Machine

namespace Sys2Proof

def EntryKind.code : EntryKind → Nat
  | .empty => 0 | .reel _ => 1 | .interval _ _ => 2 | .link _ => 3 | .finish => 4
def EntryState.code : EntryState → Nat
  | .empty => 0 | .loaded => 1 | .confirmed => 2 | .armed => 3 | .onScreen => 4 | .runningOut => 5
  | .done => 6 | .active => 7
def Side.code : Side → Nat
  | .a => 0 | .b => 1
def BankId.code : BankId → Nat
  | .b0 => 0 | .b1 => 1
def ScreenState.code : ScreenState → Nat
  | .idle => 0 | .preparing => 1 | .showing => 2 | .ending => 3 | .interval => 4 | .gap => 5 | .halted => 6
def PrepKind.code : PrepKind → Nat
  | .start => 0 | .cont => 1 | .resume => 2
def HaltReason.code : HaltReason → Nat
  | .filmBreak => 1 | .stall => 2 | .lamp => 3 | .trimOut => 4 | .runUpFail => 5 | .shutter => 6
  | .fire => 7 | .estop => 8
def ResumePoint.code : ResumePoint → Nat
  | .picture => 1 | .reel => 2 | .after => 3
def CueProgress.code : CueProgress → Nat
  | .none => 0 | .motorFired => 1 | .changeoverFired => 2
def TrimPolicy.code : TrimPolicy → Nat
  | .hold => 0 | .run => 1
def CueMode.code : CueMode → Nat
  | .counted => 0 | .sensed => 1
def Cue.code : Cue → Nat
  | .motor => 1 | .changeover => 2
def FiredAs.code : FiredAs → Nat
  | .sensed => 1 | .counted => 2 | .console => 3
def TransportState.code : TransportState → Nat
  | .stopped => 0 | .runUp => 1 | .atSpeed => 2
def LampState.code : LampState → Nat
  | .dark => 0 | .striking => 1 | .warming => 2 | .stable => 3 | .failed => 4
def LampCause.code : LampCause → Nat
  | .none => 0 | .struck => 1 | .arcEstablished => 2 | .stable => 3 | .noStrike => 4 | .arcLost => 5
  | .extinguished _ => 6 | .fire => 7 | .exhaust => 8 | .trimOut => 9 | .trimSet => 10
/-- The extinguish source byte of a LAMP notice, 0 where the cause has none. -/
def LampCause.sourceCode : LampCause → Nat
  | .extinguished .console => 1 | .extinguished .show_ => 2
  | _ => 0
def Withheld.code : Withheld → Nat
  | .off => 1 | .noTrim => 2 | .exhaust => 3 | .fire => 4
def StrikePhase.code : StrikePhase → Nat
  | .attempt => 0 | .coolOff => 1
def ShutterState.code : ShutterState → Nat
  | .dropped => 0 | .raising => 1 | .raised => 2
def DropReason.code : DropReason → Nat
  | .power => 0 | .break_ => 1 | .fire => 2 | .console => 3 | .fault => 4 | .link => 5
def FireReason.code : FireReason → Nat
  | .input => 1 | .portLink => 2 | .alarm => 3

end Sys2Proof

namespace Sys2Proof.Machine

def LineRate.code : LineRate → Nat
  | .baud1200 => 0 | .baud2400 => 1 | .baud4800 => 2 | .baud9600 => 3
/-- A switch level: 0, 1, or 2 while unsettled. -/
def levelCode : Option Bool → Nat
  | some false => 0 | some true => 1 | none => 2
def vetoCode : Option VetoCause → Nat
  | none => 0 | some .power => 1 | some .filmBreak => 2 | some .stall => 3 | some .fire => 4
  | some .estop => 5
def rankCode : Option Rank → Nat
  | none => 0 | some .fire => 1 | some .halt => 2 | some .console => 3 | some .show_ => 4
def originCode : Option Origin → Nat
  | some (.preset n) => n | some .explicit => 8 | some .alarm => 9 | none => 255
def RestartCause.code : RestartCause → Nat
  | .power => 0 | .boothReset => 1
def NotReady.code : NotReady → Nat
  | .clock => 1 | .estop => 2 | .notThreaded => 3 | .lampFailed => 4 | .trimShort => 5 | .noTrim => 6
  | .exhaust => 7 | .shutter => 8 | .loop => 9 | .transport => 10 | .sensor => 11 | .notArmed => 12
  | .lamp => 13 | .veto => 14 | .inputAsserted => 15 | .fireLock => 16
def ScreenCause.code : ScreenCause → Nat
  | .start => 1 | .cont => 2 | .resume => 3 | .pictureOn => 4 | .pictureEnd => 5 | .intervalEnd => 6
  | .halt => 7 | .furtherReason => 8 | .abort => 9 | .performanceEnd => 10
def EntryReason.code : EntryReason → Nat
  | .confirmationLost => 1 | .confirmationMoved => 2 | .armed => 3 | .trimShort => 4 | .filmMoved => 5
  | .strikeRefused => 6 | .done => 7
def SafetyEvent.code : SafetyEvent → Nat
  | .fireLatched => 1 | .fireReasonAdded => 2 | .fireCleared => 3 | .estopLatched => 4
  | .estopCleared => 5 | .exhaustProven => 6 | .exhaustLost => 7
def MainsCause.code : MainsCause → Nat
  | .locked => 1 | .interval => 2 | .silence => 3
def SchedOutcome.code : SchedOutcome → Nat
  | .missed => 1 | .skipped => 2 | .blocked => 3
def SchedReason.code : SchedReason → Nat
  | .overrun => 1 | .notThreaded => 2 | .lampFailed => 3 | .trimShort => 4 | .fireLock => 5
  | .lateSwitch => 6 | .clockSet => 7
def FaultReason.code : FaultReason → Nat
  | .emptyEntry => 1 | .selfLink => 2 | .linkChain => 3

/-- Result codes (R180). -/
def Result.code : Result → Byte
  | .done => 0x00 | .accepted => 0x01 | .already => 0x02 | .busy => 0x10 | .notReady _ => 0x11
  | .fireLock => 0x12 | .pending => 0x13 | .badField => 0x20 | .noSuch => 0x21 | .badProgramme => 0x22
  | .cycleShort => 0x23 | .baseError => 0x24 | .unknownKind => 0x30 | .badLength => 0x31
  | .checkError => 0x32 | .queueFull => 0x33

/-! ## Inputs -/

/-- R75: the level held by at least two of three samples. -/
def majority (a b c : Bool) : Bool := (a && b) || (a && c) || (b && c)

end Sys2Proof.Machine
end

