-- ==== Sys2Proof/Machine/ArcLamps.lean ====
section
/-!
DEFINITION. Chapters 5 and 6 at the ALC: the lamp states, striking, warming, arc loss, extinguishing, feed
regulation, the trim record, the trim-low comparison, lamp setup.
-/

namespace Sys2Proof.Machine

/-! ## A change of lamp state (R98) -/

/-- The lamp record after a change of state: outside STRIKING every strike timer is stopped and the striker
is open (R96, R103). -/
def Alc.enter (a : Alc) (new : LampState) (cause : LampCause) : Alc :=
  if new = .striking then { a with state := new, lastCause := cause }
  else
    { a with state := new, lastCause := cause, strikerTimer := false, attemptTimer := false,
             coolOffTimer := false }

/-- The LAMP notice of a change (R98, 10.7: attempt count for ARC ESTABLISHED and NO STRIKE, restrike withheld
for ARC LOST). -/
def Alc.notice (a : Alc) (p : Proj) (old : LampState) : NoticeBody :=
  .lamp p a.state old a.lastCause
    (if a.lastCause = .arcEstablished ∨ a.lastCause = .noStrike then some a.attempts else none)
    (if a.lastCause = .arcLost then a.withheld else none)
    a.vm a.im a.remaining

/-- R98: one change of lamp state. The state moves, the lamp state change is raised to the SHC of the lamp's
screen, and the LAMP notice is raised. -/
def State.lampChange (s : State) (p : Proj) (new : LampState) (cause : LampCause) : State :=
  let old := (s.alc.get p).state
  let s := (s.modAlc p (·.enter new cause)).emit (.lampStateChange p new old cause)
  s.note ((s.alc.get p).notice p old)

/-! ## Striking (R99 to R101) -/

/-- R101: a strike attempt begins. -/
def Alc.beginAttempt (a : Alc) : Alc :=
  { a with attempts := a.attempts + 1, phase := .attempt, goodRun := 0, strikerTimer := true,
           attemptTimer := true, coolOffTimer := false }

/-- R100: the lamp record at the beginning of a strike. -/
def Alc.prepareStrike (a : Alc) : Alc :=
  { a with attempts := 0, limitInForce := a.setup.limit, acc := 0, goodRun := 0, inBand := 0, lowRun := 0,
           withheld := none }

/-- R100: a strike begins, with cause STRUCK or ARC LOST; its first attempt follows. -/
def State.beginStrike (s : State) (p : Proj) (cause : LampCause) : State :=
  ((s.modAlc p Alc.prepareStrike).lampChange p .striking cause).modAlc p Alc.beginAttempt

/-- R99, items 2 to 5: why a STRIKE of lamp `p` is not accepted. -/
def State.strikeRefusal (s : State) (p : Proj) : Option Result :=
  let a := s.alc.get p
  if a.state.lit then some .already
  else if a.remaining = 0 then some (.notReady .noTrim)
  else if s.bsu.proven = false then some (.notReady .exhaust)
  else if s.fireLatched then some .fireLock
  else none

/-- R99: a STRIKE of lamp `p` is decided; an accepted one begins. -/
def State.askStrike (s : State) (p : Proj) : Result × State :=
  match s.strikeRefusal p with
  | some r => (r, s)
  | none => (.accepted, s.beginStrike p .struck)

/-- The lamp's reason of a refused strike, as ENTRY notices and NOT READY replies name it. -/
def lampReason : Result → NotReady
  | .notReady r => r
  | _ => .fireLock

def strike (asker : LampAsker) (s : State) : State :=
  match asker with
  | .shc p => (s.askStrike p).2
  | .console tag lamp =>
    match projOf lamp with
    | none => s.answer 0x38 tag .noSuch
    | some p => (s.askStrike p).2.answer 0x38 tag (s.askStrike p).1

/-- STRIKE (R99): from the console it is answered by a reply; the SHC's own STRIKEs are decided inside the
SHC's step (log entry 5). -/
def execStrike (asker : LampAsker) (s : State) : Outcome := .next (strike asker (s.taken (.strike asker)))

/-- STRIKER_TIMER_EXPIRY (R101): the striker opens. -/
def execStrikerTimerExpiry (p : Proj) (s : State) : Outcome :=
  .next (s.modAlc p fun a => { a with strikerTimer := false })

def attemptExpiry (p : Proj) (s : State) : State :=
  let a := s.alc.get p
  if a.attemptTimer then
    if a.attempts < a.limitInForce then
      s.modAlc p fun a =>
        { a with strikerTimer := false, attemptTimer := false, phase := .coolOff, coolOffTimer := true }
    else s.lampChange p .failed .noStrike
  else s

/-- ATTEMPT_TIMER_EXPIRY (R103): a cool-off, with the striker open (R96), or FAILED at the attempt limit in force. -/
def execAttemptTimerExpiry (p : Proj) (s : State) : Outcome := .next (attemptExpiry p s)

def coolOffExpiry (p : Proj) (s : State) : State :=
  if (s.alc.get p).coolOffTimer then s.modAlc p Alc.beginAttempt else s

/-- COOL_OFF_TIMER_EXPIRY (R103): the next attempt begins. -/
def execCoolOffTimerExpiry (p : Proj) (s : State) : Outcome := .next (coolOffExpiry p s)

/-! ## Extinguishing (R107, R108) -/

/-- R107, R108: a lamp that is not DARK goes DARK with `cause`. -/
def State.putOut (s : State) (p : Proj) (cause : LampCause) : State :=
  if (s.alc.get p).state = .dark then s else s.lampChange p .dark cause

/-- R107: an EXTINGUISH from the SHC, at an ABORT, a halt or a runout. -/
def State.shcExtinguish (s : State) (p : Proj) : State := s.putOut p (.extinguished .show_)

def extinguish (asker : LampAsker) (s : State) : State :=
  match asker with
  | .shc p => s.shcExtinguish p
  | .console tag lamp =>
    match projOf lamp with
    | none => s.answer 0x39 tag .noSuch
    | some p =>
      if (s.alc.get p).state = .dark then s.answer 0x39 tag .already
      else (s.putOut p (.extinguished .console)).answer 0x39 tag .done

/-- EXTINGUISH (R107). -/
def execExtinguish (asker : LampAsker) (s : State) : Outcome :=
  .next (extinguish asker (s.taken (.extinguish asker)))

/-- BSU_EXTINGUISH (R108). -/
def execBsuExtinguish (p : Proj) (reason : BsuReason) (s : State) : Outcome :=
  .next ((s.taken (.bsuExtinguish p reason)).putOut p
    (match reason with | .fire => .fire | .exhaust => .exhaust))

/-! ## Feed regulation (R109 to R112) -/

/-- R109: the sum of the accumulator and B × Im. -/
def Alc.feedSum (a : Alc) : Nat := a.acc + a.setup.b * a.im

/-- R110: the steps of base feed `base` at the last sample's voltage. -/
def Alc.feedWanted (a : Alc) (base : Nat) : Nat :=
  if a.setup.vset + a.setup.d < a.vm then
    base + min Config.feedLimit ((a.vm - a.setup.vset - a.setup.d) * a.setup.kf / 64)
  else if a.vm + a.setup.d < a.setup.vset then
    base - min base ((a.setup.vset - a.vm - a.setup.d) * a.setup.kf / 64)
  else base

/-- R111: the steps given, at most 8 and at most the remaining trim. -/
def Alc.feedSteps (a : Alc) : Nat :=
  min (min Config.feedLimit a.remaining) (a.feedWanted (a.feedSum / Config.feedUnit))

/-- R109 to R111: the lamp record after the feed of a sample. -/
def Alc.feed (a : Alc) : Alc :=
  { a with acc := a.feedSum % Config.feedUnit, steps := a.feedSteps, consumed := a.consumed + a.feedSteps }

/-- R127: the seconds still needed by the served entry at frame count `n`. -/
def secondsNeeded (a : Alc) (v : ServiceRecord) (n : Nat) : Nat := ceilDiv (v.runFrames - n) v.f + a.setup.margin

/-- R127: the trim-low comparison after a change of C. -/
def State.trimLow (s : State) (p : Proj) : State :=
  let a := s.alc.get p
  match a.service with
  | none => s
  | some v =>
    let n := (s.trm.get p).count
    let need := secondsNeeded a v n
    if a.avail < need ∧ v.lowReported = false then
      (s.modAlc p fun a => { a with service := some { v with lowReported := true } }).note
        (.trimLow v.screen p v.bank v.index v.title n v.runFrames a.avail need a.remaining)
    else s

/-- R109 to R112, R127: the feed regulation of one sample. -/
def feedRegulation (p : Proj) (s : State) : State :=
  let s := s.modAlc p Alc.feed
  if (s.alc.get p).steps = 0 then s
  else
    let s := s.trimLow p
    let a := s.alc.get p
    if a.consumed = a.trim then s.lampChange p .dark .trimOut else s

/-! ## The arc sample (R97, R102, R104 to R106) -/

/-- R106: the first condition that withholds a restrike. -/
def State.restrikeWithheld (s : State) (p : Proj) : Option Withheld :=
  let a := s.alc.get p
  if a.setup.auto = false then some .off
  else if a.remaining = 0 then some .noTrim
  else if s.bsu.proven = false then some .exhaust
  else if s.fireLatched then some .fire
  else none

/-- R106: the arc is lost. -/
def arcLost (p : Proj) (s : State) : State :=
  match s.restrikeWithheld p with
  | none => s.beginStrike p .arcLost
  | some w => (s.modAlc p fun a => { a with withheld := some w }).lampChange p .dark .arcLost

/-- R102: the attempt test. -/
def attemptTest (p : Proj) (s : State) : State :=
  let a := s.alc.get p
  if a.setup.imin ≤ a.im then
    if a.goodRun + 1 < Config.goodSamples then s.modAlc p fun a => { a with goodRun := a.goodRun + 1 }
    else
      (s.modAlc p fun a => { a with goodRun := Config.goodSamples, inBand := 0, lowRun := 0 }).lampChange p
        .warming .arcEstablished
  else s.modAlc p fun a => { a with goodRun := 0 }

/-- R104: the stability test. -/
def stabilityTest (p : Proj) (s : State) : State :=
  let a := s.alc.get p
  if absDiff a.vm a.setup.vset ≤ a.setup.band then
    if a.inBand + 1 < Config.stableSamples then s.modAlc p fun a => { a with inBand := a.inBand + 1 }
    else (s.modAlc p fun a => { a with inBand := Config.stableSamples }).lampChange p .stable .stable
  else s.modAlc p fun a => { a with inBand := 0 }

/-- R105: the low-current run after the last sample. -/
def Alc.lowAfter (a : Alc) : Nat := if a.im < a.setup.imin then a.lowRun + 1 else 0

/-- R97, R105: a sample taken in WARMING or STABLE. -/
def burningSample (p : Proj) (s : State) : State :=
  let s := s.modAlc p fun a => { a with lowRun := a.lowAfter }
  if Config.lowSamples ≤ (s.alc.get p).lowRun then arcLost p s
  else
    let s := feedRegulation p s
    if (s.alc.get p).state = .warming then stabilityTest p s else s

/-- R97: a sample is kept, and the steps of the sample before have been issued (R96). -/
def Alc.sample (a : Alc) (vm im : Nat) : Alc := { a with vm := min 1023 vm, im := min 255 im, steps := 0 }

def arcSample (p : Proj) (vm im : Nat) (s : State) : State :=
  let s := s.modAlc p (·.sample vm im)
  let a := s.alc.get p
  match a.state with
  | .dark => s
  | .failed => s
  | .striking => if a.phase = .attempt then attemptTest p s else s
  | .warming => burningSample p s
  | .stable => burningSample p s

/-- ARC_SAMPLE (R97). -/
def execArcSample (p : Proj) (vm im : Nat) (s : State) : Outcome := .next (arcSample p vm im s)

/-! ## SET TRIM (R117, R118) and SET LAMP (R113) -/

/-- R117, R118: a new trim; the low-reported flag is cleared. -/
def Alc.newTrim (a : Alc) (length : Nat) : Alc :=
  { a with trim := length, consumed := 0,
           service := a.service.map fun v => { v with lowReported := false } }

/-- R117: an accepted SET TRIM on a DARK or FAILED lamp, handed to the SHC (R118). -/
def State.fitTrim (s : State) (p : Proj) (length : Nat) : State :=
  let failed := (s.alc.get p).state = .failed
  let s := s.modAlc p (·.newTrim length)
  let s := if failed then (s.modAlc p fun a => { a with withheld := none }).lampChange p .dark .trimSet else s
  s.emit (.setTrimAccepted p)

def setTrim (tag lamp : Byte) (length : Half) (s : State) : State :=
  match projOf lamp with
  | none => s.answerSet 0x3A tag .noSuch false
  | some p =>
    if (s.alc.get p).state.lit then s.answerSet 0x3A tag .busy false
    else
      (s.fitTrim p (min Config.maxTrim length.toNat)).answerSet 0x3A tag .done (Config.maxTrim < length.toNat)

/-- SET_TRIM (R117). -/
def execSetTrim (tag lamp : Byte) (length : Half) (s : State) : Outcome :=
  .next (setTrim tag lamp length (s.taken (.setTrim tag lamp length)))

/-- R113: the setup SET LAMP writes, every field brought into its range, I_nom before I_min. -/
def lampSetupOf (x : LampFields) : LampSetup :=
  let inom := clamp 30 150 x.inom.toNat
  { vset := clamp 200 600 x.vset.toNat
    d := clamp 0 50 x.d.toNat
    kf := x.kf.toNat
    band := clamp 5 100 x.band.toNat
    b := clamp 1 255 x.b.toNat
    inom := inom
    imin := clamp 10 inom x.imin.toNat
    lead := clamp 30 600 x.lead.toNat
    limit := clamp 1 8 x.limit.toNat
    margin := clamp 0 600 x.margin.toNat
    auto := x.auto = 1 }

/-- R113: some field of the request was changed by clamping. -/
def lampClamped (x : LampFields) : Bool :=
  let y := lampSetupOf x
  !(y.vset = x.vset.toNat && y.d = x.d.toNat && y.band = x.band.toNat && y.b = x.b.toNat &&
    y.inom = x.inom.toNat && y.imin = x.imin.toNat && y.lead = x.lead.toNat && y.limit = x.limit.toNat &&
    y.margin = x.margin.toNat)

def setLamp (tag lamp : Byte) (x : LampFields) (s : State) : State :=
  match projOf lamp with
  | none => s.answerSet 0x21 tag .noSuch false
  | some p =>
    if x.auto = 0 ∨ x.auto = 1 then
      (s.modAlc p fun a => { a with setup := lampSetupOf x }).answerSet 0x21 tag .done (lampClamped x)
    else s.answerSet 0x21 tag .badField false

/-- SET_LAMP (R113). -/
def execSetLamp (tag lamp : Byte) (fields : LampFields) (s : State) : Outcome :=
  .next (setLamp tag lamp fields (s.taken (.setLamp tag lamp fields)))

end Sys2Proof.Machine
end

