-- ==== Sys2Proof/Machine/Programmes.lean ====
section
/-!
DEFINITION. Chapter 1 at the SHC: LINK resolution and its notices, writing and reading entries, switching
programmes and the pending switch, the slots of the schedule record. (CONFIRM REEL stands in Arming.lean and
the booth second in Schedule.lean, since both arm reels.)
-/

namespace Sys2Proof.Machine

/-! ## LINK resolution (R9, R10) -/

/-- What a resolution arrives at; `finish` is END or none, which every user treats alike. -/
inductive Resolved where
  | reel (index : Nat) (r : Reel)
  | interval (index duration preset : Nat)
  | finish
  | fault (atIndex : Nat) (reason : FaultReason)
  deriving DecidableEq, Repr

/-- R9: the entry at `p` examined with `hops` LINKs still to be followed. -/
def resolveFrom (es : List Entry) : (hops p : Nat) → Resolved
  | hops, p =>
    match (entryAt es p).kind with
    | .reel r => .reel p r
    | .interval d q => .interval p d q
    | .finish => .finish
    | .empty => .fault p .emptyEntry
    | .link t =>
      if t = p then .fault p .selfLink
      else
        match hops with
        | 0 => .fault p .linkChain
        | h + 1 => resolveFrom es h t

/-- R9: resolution from index `p`. -/
def resolve (es : List Entry) (p : Nat) : Resolved := resolveFrom es Config.maxHops p

/-- R9: "the next entry after index i"; after 23 there is none. -/
def nextAfter (es : List Entry) (i : Nat) : Resolved :=
  if i + 1 < Config.bankSize then resolve es (i + 1) else .finish

def Shc.next (c : Shc) (i : Nat) : Resolved := nextAfter (c.bank c.active) i
def Shc.first (c : Shc) : Resolved := resolve (c.bank c.active) 0

/-- R10: a resolution that ended in a programme fault raises its notice; `p` is the index resolved from. -/
def State.noteFault (s : State) (sc : Screen) (p : Nat) (res : Resolved) : State :=
  match res with
  | .fault i reason => s.note (.programmeFault sc (s.shc.get sc).active p i reason)
  | _ => s

/-! ## Writing and reading entries (R4 to R6) -/

def Shc.staged (c : Shc) : BankId := c.active.other

/-- R4, R5: a CONFIRMED entry whose contents go raises CONFIRMATION LOST. -/
def State.noteLost (s : State) (sc : Screen) (b : BankId) (i : Nat) (e : Entry) : State :=
  match e.kind with
  | .reel r => if e.state = .confirmed then s.noteEntry sc b i r .confirmationLost false none else s
  | _ => s

/-- R4: the entry an accepted WRITE ENTRY writes. -/
def Entry.written (k : EntryKind) : Entry := ⟨k, if k = .empty then .empty else .loaded, false⟩

def writeEntry (tag screen index kind : Byte) (area : List Byte) (s : State) : State :=
  match screenOf screen, indexOf index with
  | some sc, some i =>
    let c := s.shc.get sc
    if c.switch.isSome then s.answer 0x28 tag .pending
    else
      match kindOfArea kind.toNat area with
      | none => s.answer 0x28 tag .badField
      | some k =>
        ((s.modShc sc (·.modEntry c.staged i fun _ => Entry.written k)).noteLost sc c.staged i
          (entryAt (c.bank c.staged) i)).answer 0x28 tag .done
  | _, _ => s.answer 0x28 tag .noSuch

/-- WRITE_ENTRY (R4). -/
def execWriteEntry (tag screen index kind : Byte) (area : List Byte) (s : State) : Outcome :=
  .next (writeEntry tag screen index kind area (s.taken (.writeEntry tag screen index kind area)))

/-- R5: the CONFIRMATION LOST notices of a cleared bank, in order of index. -/
def State.noteLostAll (s : State) (sc : Screen) (b : BankId) : List Entry → Nat → State
  | [], _ => s
  | e :: es, i => (s.noteLost sc b i e).noteLostAll sc b es (i + 1)

def clearStaged (tag screen : Byte) (s : State) : State :=
  match screenOf screen with
  | none => s.answer 0x29 tag .noSuch
  | some sc =>
    let c := s.shc.get sc
    if c.switch.isSome then s.answer 0x29 tag .pending
    else
      ((s.modShc sc (·.setBank c.staged (List.replicate Config.bankSize Entry.blank))).noteLostAll sc c.staged
        (c.bank c.staged) 0).answer 0x29 tag .done

/-- CLEAR_STAGED (R5). -/
def execClearStaged (tag screen : Byte) (s : State) : Outcome :=
  .next (clearStaged tag screen (s.taken (.clearStaged tag screen)))

/-- R6, R191: the reply data of READ ENTRY. -/
def entryData (c : Shc) (b : BankId) (e : Entry) : List Byte :=
  bytes1 e.kind.code ++ bytes1 e.state.code ++ flag e.short ++ bytes1 (if b = c.active then 0 else 1) ++
  flag c.switch.isSome ++ areaOf e.kind

def readEntry (tag screen bank index : Byte) (s : State) : State :=
  match screenOf screen, bankOf bank, indexOf index with
  | some sc, some b, some i =>
    let c := s.shc.get sc
    s.reply 0x2A tag .done none (entryData c b (entryAt (c.bank b) i))
  | _, _, _ => s.answer 0x2A tag .noSuch

/-- READ_ENTRY (R6). -/
def execReadEntry (tag screen bank index : Byte) (s : State) : Outcome :=
  .next (readEntry tag screen bank index (s.taken (.readEntry tag screen bank index)))

/-! ## Switching programmes (R11 to R13, R17) -/

/-- The walk of R11 over a bank: a fault, a total in seconds, or a loop, whose total is unbounded (R12). -/
inductive Walk where
  | fault
  | total (seconds : Nat)
  | unbounded
  deriving DecidableEq, Repr

/-- R11, R12: the walk goes on from a resolution. `fuel` exceeds the number of entries a walk can reach. -/
def walk (es : List Entry) (f : Nat) : (fuel : Nat) → Resolved → (reached : List Nat) → (sum : Nat) → Walk
  | 0, _, _, _ => .unbounded
  | n + 1, res, reached, sum =>
    match res with
    | .fault _ _ => .fault
    | .finish => .total sum
    | .reel i r =>
      if i ∈ reached then .unbounded
      else walk es f n (nextAfter es i) (i :: reached) (sum + ceilDiv r.lp f)
    | .interval i d _ =>
      if i ∈ reached then .unbounded else walk es f n (nextAfter es i) (i :: reached) (sum + d)

/-- R11 item 4: the walk of a staged bank; a programme whose first entry is no REEL fails as a fault does. -/
def programmeWalk (es : List Entry) (f : Nat) : Walk :=
  match resolve es 0 with
  | .reel i r => walk es f (Config.bankSize + 2) (.reel i r) [] 0
  | _ => .fault

/-- R12: the cycle is too short for the programme. -/
def cycleShort (tc : Nat) : Walk → Bool
  | .total sum => 0 < tc && tc < sum
  | .unbounded => 0 < tc
  | .fault => false

/-- R13: T0′ advanced by Tc′ until it is not less than `now`, with the number of additions; absent where the
request is refused BASE ERROR. -/
def advanceBase (now tc : Nat) : (left t0 made : Nat) → Option (Nat × Nat)
  | left, t0, made =>
    if now ≤ t0 then some (t0, made)
    else if tc = 0 then none
    else
      match left with
      | 0 => none
      | n + 1 => if Config.maxTime < t0 + tc then none else advanceBase now tc n (t0 + tc) (made + 1)

def switchProgramme (tag screen : Byte) (t0 tc : Word) (np : Half) (s : State) : State :=
  match screenOf screen with
  | none => s.answer 0x2B tag .noSuch
  | some sc =>
    let c := s.shc.get sc
    let w := programmeWalk (c.bank c.staged) c.setup.f
    if 86400 < tc.toNat then s.answer 0x2B tag .badField
    else if s.bck.isSet = false then s.answer 0x2B tag (.notReady .clock)
    else if c.switch.isSome then s.answer 0x2B tag .pending
    else if w = .fault then s.answer 0x2B tag .badProgramme
    else if cycleShort tc.toNat w then s.answer 0x2B tag .cycleShort
    else
      match advanceBase s.bck.time tc.toNat Config.maxAdvances t0.toNat 0 with
      | none => s.answer 0x2B tag .baseError
      | some (t, made) =>
        (s.modShc sc fun c => { c with switch := some ⟨t, tc.toNat, np.toNat⟩ }).reply 0x2B tag .accepted none
          (bytes1 made ++ bytes4 t)

/-- SWITCH_PROGRAMME (R11 to R13). -/
def execSwitchProgramme (tag screen : Byte) (t0 tc : Word) (np : Half) (s : State) : Outcome :=
  .next (switchProgramme tag screen t0 tc np (s.taken (.switchProgramme tag screen t0 tc np)))

def cancelSwitch (tag screen : Byte) (s : State) : State :=
  match screenOf screen with
  | none => s.answer 0x2C tag .noSuch
  | some sc =>
    match (s.shc.get sc).switch with
    | none => s.answer 0x2C tag .noSuch
    | some w =>
      ((s.modShc sc fun c => { c with switch := none }).note (.switch sc false w.t0 w.tc w.np)).answer 0x2C tag
        .done

/-- CANCEL_SWITCH (R17). -/
def execCancelSwitch (tag screen : Byte) (s : State) : Outcome :=
  .next (cancelSwitch tag screen (s.taken (.cancelSwitch tag screen)))

/-! ## Slots (R18) -/

/-- The slot time of slot k (R18). -/
def Schedule.slotTime (x : Schedule) : Nat := x.t0 + x.k * x.tc

/-- R18: no slot is left to be taken: the single slot is gone, k has reached Np, slot 65,535 is gone, or the
next slot time would pass the greatest booth time. R18 says of a single slot that it has been taken or skipped; that one
missed (R21, R22) is gone too is the model's choice (log entry 8). -/
def Schedule.exhausted (x : Schedule) : Bool :=
  (x.tc = 0 && 0 < x.k) || (0 < x.np && x.np ≤ x.k) || Config.maxSlot < x.k || Config.maxTime < x.slotTime

/-- R18: the record becomes absent when no slot is left and no start wait remains open. -/
def Schedule.settle (x : Schedule) : Option Schedule :=
  if x.exhausted && x.wait.isNone then none else some x

/-- R16, R24: the slots from slot k on that are `gone` are skipped, one by one. The count is of those skipped. -/
def skipSlots (gone : Nat → Bool) : (fuel : Nat) → Schedule → (count : Nat) → Schedule × Nat
  | 0, x, n => (x, n)
  | m + 1, x, n =>
    if !x.exhausted && gone x.slotTime then skipSlots gone m { x with k := x.k + 1 } (n + 1) else (x, n)

/-- R16, R24: skipping with its SCHEDULE SKIPPED notice when at least one slot was skipped. -/
def State.skip (s : State) (sc : Screen) (x : Schedule) (gone : Nat → Bool) (reason : SchedReason) : State :=
  match skipSlots gone (Config.maxSlot + 1) x 0 with
  | (_, 0) => s
  | (x', n + 1) =>
    (s.modShc sc fun c => { c with schedule := ({ x' with preStrike := false } : Schedule).settle }).note
      (.schedule sc .skipped (some reason) (min 255 (n + 1)) x.slotTime)

/-! ## The pending switch (R14 to R16) -/

/-- R14: S0, the strike lead of the lamp of the staged bank's first entry. -/
def State.stagedLead (s : State) (sc : Screen) : Nat :=
  let c := s.shc.get sc
  match resolve (c.bank c.staged) 0 with
  | .reel _ r => (s.alc.get (sc.proj r.side)).setup.lead
  | _ => 0

/-- R15 item 2: an entry of the former active bank. -/
def Entry.unload (e : Entry) : Entry := if e.kind = .empty then e else e.become .loaded

/-- R15 items 1 to 4: the SHC after the switch `w`. -/
def Shc.takeSwitch (c : Shc) (w : PendingSwitch) : Shc :=
  { c.setBank c.active ((c.bank c.active).map Entry.unload) with
    active := c.active.other
    schedule := some ⟨w.t0, w.tc, w.np, 0, 0, false, none, false⟩
    switch := none }

/-- R15, R16: a switch takes effect at booth time `now`. -/
def State.takeSwitch (s : State) (sc : Screen) (w : PendingSwitch) (now : Nat) : State :=
  let grace := (s.shc.get sc).setup.grace
  ((s.modShc sc (·.takeSwitch w)).note (.switch sc true w.t0 w.tc w.np)).skip sc
    ⟨w.t0, w.tc, w.np, 0, 0, false, none, false⟩ (fun t => t + grace < now) .lateSwitch

/-- R14: the test of a pending switch at booth time `now`. -/
def State.testSwitch (s : State) (sc : Screen) (now : Nat) : State :=
  let c := s.shc.get sc
  match c.switch with
  | none => s
  | some w => if c.state = .idle ∧ w.t0 - s.stagedLead sc ≤ now then s.takeSwitch sc w now else s

end Sys2Proof.Machine
end

