-- ==== Sys2Proof/Machine/Arming.lean ====
section
/-!
DEFINITION. Arming (sections 3.2, 3.3 and 6.4): the trim test, armability, arming, the strike point, the late
arming, the arming evaluation; and the requests that bear on it at once: CONFIRM REEL, the withdrawal of a
confirmation (1.4) and an accepted SET TRIM (R118).
-/

namespace Sys2Proof.Machine

/-! ## The trim test (R121 to R123) -/

/-- The two cases of the trim test (R54 item 5), with Fc_out and n_out in the changeover case. -/
inductive TrimCase where
  | changeover (fcOut nOut : Nat)
  | coldStart
  deriving DecidableEq, Repr

/-- R121: the run frames of the reel `r` of entry `i`. -/
def Shc.runFrames (c : Shc) (i : Nat) (r : Reel) : Nat :=
  match c.next i with
  | .reel _ _ => r.fc
  | _ => r.lp

/-- R122: the whole seconds left to the outgoing reel's changeover cue. -/
def secondsToCue (fcOut nOut f : Nat) : Nat := ceilDiv (fcOut - nOut) f

/-- R122, R123: the pre-burn P. -/
def preBurn (a : Alc) (f : Nat) : TrimCase → Nat
  | .changeover fcOut nOut => min a.setup.lead (secondsToCue fcOut nOut f)
  | .coldStart => if a.state = .stable then 0 else a.setup.lead

/-- R123: the required burn Q. -/
def requiredBurn (a : Alc) (f runFrames : Nat) (k : TrimCase) : Nat :=
  ceilDiv runFrames f + preBurn a f k + a.setup.margin

/-- R123: the trim test of entry `i` passes. -/
def State.trimPasses (s : State) (sc : Screen) (i : Nat) (r : Reel) (k : TrimCase) : Bool :=
  let c := s.shc.get sc
  let a := s.alc.get (sc.proj r.side)
  requiredBurn a c.setup.f (c.runFrames i r) k ≤ a.avail

/-! ## Armability (R54, R124) -/

/-- The outcome of R54 for a REEL candidate: armable, perhaps short, or the reason of the first condition that
fails. -/
inductive Verdict where
  | armable (short : Bool)
  | fails (reason : NotReady)
  deriving DecidableEq, Repr

/-- R54, items 1 to 4. -/
def State.blocker (s : State) (sc : Screen) (i : Nat) (r : Reel) : Option NotReady :=
  let p := sc.proj r.side
  if s.fireLatched then some .fireLock
  else if ((s.shc.get sc).entry i).state ≠ .confirmed then some .notThreaded
  else if (s.trm.get p).state ≠ .stopped then some .notThreaded
  else if (s.alc.get p).state = .failed then some .lampFailed
  else none

/-- R54: the candidate `r` of entry `i` is tested. The trim test is computed when items 1 to 4 hold, and the
resolution it makes (R121) raises its notice when it ends in a fault. -/
def State.judge (s : State) (sc : Screen) (i : Nat) (r : Reel) (k : TrimCase) : Verdict × State :=
  match s.blocker sc i r with
  | some x => (.fails x, s)
  | none =>
    let c := s.shc.get sc
    let s' := s.noteFault sc (i + 1) (c.next i)
    if s.trimPasses sc i r k then (.armable false, s')
    else
      match c.setup.policy with
      | .run => (.armable true, s')
      | .hold => (.fails .trimShort, s')

/-! ## Arming (R55) -/

/-- R3, R55: the entry becomes ARMED with its short flag. -/
def Entry.arm (e : Entry) (short : Bool) : Entry := { e with state := .armed, short := short }

/-- R55: the TRM zeroes its count and takes Lp as its run length. -/
def Trm.armFor (t : Trm) (lp : Nat) : Trm := { t with count := 0, runLength := some lp }

/-- R55: entry `i` is armed. -/
def State.arm (s : State) (sc : Screen) (i : Nat) (r : Reel) (short : Bool) : State :=
  let b := (s.shc.get sc).active
  ((s.modShc sc (·.modEntry b i (·.arm short))).modTrm (sc.proj r.side) (·.armFor r.lp)).noteEntry sc b i r
    .armed short none

/-! ## The strike of the incoming lamp and its motor (R58, R59, R62, R63) -/

/-- R59: a STRIKE request to the incoming lamp if it is DARK or FAILED, a refusal reported by ENTRY. -/
def State.strikeIncoming (s : State) (sc : Screen) (i : Nat) (r : Reel) : State :=
  let p := sc.proj r.side
  if (s.alc.get p).state.lit then s
  else
    match s.askStrike p with
    | (.accepted, s') => s'
    | (x, s') =>
      let c := s'.shc.get sc
      s'.noteEntry sc c.active i r .strikeRefused (c.entry i).short (some (lampReason x))

def State.dropStrikeFrame (s : State) (sc : Screen) : State :=
  s.modShc sc fun c => { c with strikeFrame := none }

/-- R59: the strike is made for the ARMED incoming entry. -/
def State.makeStrike (s : State) (sc : Screen) : State :=
  let s := s.dropStrikeFrame sc
  match (s.shc.get sc).holding .armed with
  | some (i, r) => s.strikeIncoming sc i r
  | none => s

/-- R58: the strike frame for the outgoing cue frame, the strike lead and the frame rate. -/
def strikeFrameOf (fcOut lead f : Nat) : Nat := fcOut - lead * f

/-- R58: the strike point is placed for the ARMED incoming `r`, the outgoing reel's values being Fc_out and
n_out. -/
def State.placeStrike (s : State) (sc : Screen) (r : Reel) (fcOut nOut : Nat) : State :=
  let a := s.alc.get (sc.proj r.side)
  let x := strikeFrameOf fcOut a.setup.lead (s.shc.get sc).setup.f
  if a.state.lit then s.dropStrikeFrame sc
  else if x ≤ nOut then s.makeStrike sc
  else s.modShc sc fun c => { c with strikeFrame := some x }

/-- R62, R63: the motor of the ARMED incoming entry is commanded on, and its lamp, if DARK or FAILED, is sent a
STRIKE, with which the strike frame becomes absent. -/
def State.startIncoming (s : State) (sc : Screen) (i : Nat) (r : Reel) : State :=
  let p := sc.proj r.side
  let s := s.motorOn p
  if (s.alc.get p).state.lit then s else (s.dropStrikeFrame sc).strikeIncoming sc i r

/-! ## The arming evaluation (R53, R56, R57) -/

/-- R53: the index after which the candidate of an evaluation is sought. -/
def Shc.evaluateAfter (c : Shc) : Option Nat :=
  match c.state with
  | .showing => (c.holding .onScreen).map (·.1)
  | .interval | .gap => some c.current
  | _ => none

/-- The ON_SCREEN entry's changeover cue frame and its projector's count. -/
def State.outgoing (s : State) (sc : Screen) : Option (Nat × Nat) :=
  ((s.shc.get sc).holding .onScreen).map fun x => (x.2.fc, (s.trm.get (sc.proj x.2.side)).count)

/-- R54 item 5: the case an evaluation uses. -/
def State.evaluateCase (s : State) (sc : Screen) : TrimCase :=
  let c := s.shc.get sc
  if c.state = .showing ∧ c.progress ≠ .changeoverFired then
    match s.outgoing sc with
    | some (fc, n) => .changeover fc n
    | none => .coldStart
  else .coldStart

def State.setTrimHold (s : State) (sc : Screen) (x : Option Nat) : State :=
  s.modShc sc fun c => { c with trimHold := x }

/-- R57: what follows an arming made by an evaluation in case `k`. -/
def State.afterArming (s : State) (sc : Screen) (i : Nat) (r : Reel) (k : TrimCase) : State :=
  match k with
  | .coldStart => s
  | .changeover fcOut nOut =>
    if (s.shc.get sc).progress = .none then s.placeStrike sc r fcOut nOut else s.startIncoming sc i r

/-- R56: the candidate, entry `i`, is tested and armed, held back, or left alone. -/
def State.evaluateReel (s : State) (sc : Screen) (i : Nat) (r : Reel) : State :=
  let k := s.evaluateCase sc
  match s.judge sc i r k with
  | (.armable short, s') => ((s'.arm sc i r short).setTrimHold sc none).afterArming sc i r k
  | (.fails .trimShort, s') =>
    let c := s'.shc.get sc
    if c.trimHold = some i then s'
    else (s'.noteEntry sc c.active i r .trimShort false none).setTrimHold sc (some i)
  | (.fails _, s') => s'.setTrimHold sc none

/-- R56: one arming evaluation, made in SHOWING, INTERVAL and GAP. -/
def State.evaluate (s : State) (sc : Screen) : State :=
  let c := s.shc.get sc
  match c.evaluateAfter with
  | none => s
  | some i =>
    let s' := s.noteFault sc (i + 1) (c.next i)
    match c.next i with
    | .reel j r => if (c.entry j).state = .armed then s'.setTrimHold sc none else s'.evaluateReel sc j r
    | _ => s'.setTrimHold sc none

/-! ## CONFIRM REEL (R7, R8) -/

/-- A REEL of side `side` in one of the states `q` admits. -/
def Entry.reelOn (e : Entry) (side : Side) (q : EntryState → Bool) : Bool :=
  match e.kind with
  | .reel r => decide (r.side = side) && q e.state
  | _ => false

/-- ARMED, ON_SCREEN or RUNNING_OUT (R7 item 4). -/
def EntryState.engaged : EntryState → Bool
  | .armed | .onScreen | .runningOut => true
  | _ => false

/-- R7 item 4: an entry of the side's projector is ARMED, ON_SCREEN or RUNNING_OUT, in either bank. -/
def Shc.sideBusy (c : Shc) (side : Side) : Bool :=
  (c.bank0 ++ c.bank1).any (·.reelOn side EntryState.engaged)

/-- R7: a CONFIRMED entry of the projector returns to LOADED. -/
def Entry.unconfirm (side : Side) (e : Entry) : Entry :=
  if e.reelOn side (· = .confirmed) then e.become .loaded else e

def Shc.unconfirm (c : Shc) (side : Side) : Shc :=
  { c with bank0 := c.bank0.map (Entry.unconfirm side), bank1 := c.bank1.map (Entry.unconfirm side) }

/-- R7: the CONFIRMATION MOVED notices, in order of index. -/
def State.noteMoved (s : State) (sc : Screen) (b : BankId) (side : Side) : List Entry → Nat → State
  | [], _ => s
  | e :: es, i =>
    match e.kind with
    | .reel r =>
      if e.reelOn side (· = .confirmed) then
        (s.noteEntry sc b i r .confirmationMoved false none).noteMoved sc b side es (i + 1)
      else s.noteMoved sc b side es (i + 1)
    | _ => s.noteMoved sc b side es (i + 1)

/-- R7: the confirmation is accepted; on the active bank an arming evaluation follows (R56). -/
def State.confirm (s : State) (sc : Screen) (b : BankId) (i : Nat) (side : Side) : State :=
  let c := s.shc.get sc
  let s := s.modShc sc fun c => (c.unconfirm side).modEntry b i (·.become .confirmed)
  let s := (s.noteMoved sc .b0 side c.bank0 0).noteMoved sc .b1 side c.bank1 0
  if b = c.active then s.evaluate sc else s

/-- R8: the withdrawal of the confirmation of entry `i` of bank `b`, which is a REEL of side `side`. The motor command
is the projector's, which its TRM holds (R77). -/
def withdrawReel (tag : Byte) (sc : Screen) (b : BankId) (i : Nat) (side : Side) (s : State) : State :=
  let c := s.shc.get sc
  match (entryAt (c.bank b) i).state with
  | .confirmed => (s.modShc sc (·.modEntry b i (·.become .loaded))).answer 0x2D tag .done
  | .armed =>
    if (c.state = .preparing ∧ b = c.active ∧ c.current = i) ∨
        (s.trm.get (sc.proj side)).motor = true then
      s.answer 0x2D tag .busy
    else ((s.modShc sc (·.modEntry b i (·.become .loaded))).dropStrikeFrame sc).answer 0x2D tag .done
  | .onScreen => s.answer 0x2D tag .busy
  | .runningOut => s.answer 0x2D tag .busy
  | _ => s.answer 0x2D tag .already

/-- R7: the confirmation of entry `i` of bank `b`, which is a REEL of side `side`. -/
def confirmReelOf (tag : Byte) (sc : Screen) (b : BankId) (i : Nat) (side : Side) (s : State) : State :=
  let c := s.shc.get sc
  if (entryAt (c.bank b) i).state = .confirmed then s.answer 0x2D tag .already
  else if c.sideBusy side then s.answer 0x2D tag .busy
  else (s.confirm sc b i side).answer 0x2D tag .done

/-- R7, R8, R190: CONFIRM REEL with confirm byte `confirm`. -/
def confirmRequest (tag screen bank index confirm : Byte) (s : State) : State :=
  match screenOf screen, bankOf bank, indexOf index with
  | some sc, some b, some i =>
    match (entryAt ((s.shc.get sc).bank b) i).kind with
    | .reel r =>
      if confirm = 1 then confirmReelOf tag sc b i r.side s
      else if confirm = 0 then withdrawReel tag sc b i r.side s
      else s.answer 0x2D tag .badField
    | _ => s.answer 0x2D tag .badField
  | _, _, _ => s.answer 0x2D tag .noSuch

/-- CONFIRM_REEL (R7). A confirm byte of 0 is the withdrawal of R8. -/
def execConfirmReel (tag screen bank index confirm : Byte) (s : State) : Outcome :=
  .next (confirmRequest tag screen bank index confirm (s.taken (.confirmReel tag screen bank index confirm)))

/-- WITHDRAW_CONFIRMATION (R8): CONFIRM REEL with confirm clear. -/
def execWithdrawConfirmation (tag screen bank index : Byte) (s : State) : Outcome :=
  .next (confirmRequest tag screen bank index 0 (s.taken (.withdrawConfirmation tag screen bank index)))

/-- SET_TRIM_ACCEPTED (R118). -/
def execSetTrimAccepted (p : Proj) (s : State) : Outcome :=
  .next ((s.taken (.setTrimAccepted p)).evaluate p.screen)

end Sys2Proof.Machine
end

