-- ==== Sys2Proof/Machine/HouseLights.lean ====
section
/-!
DEFINITION. Chapter 7: presets, the source table and its arbitration, fades, the aisle floor, the mains
phase tracker and the firing of the dimmers.
-/

namespace Sys2Proof

/-- The rank of a source table that a post names (R135). -/
def ShowRank.rank : ShowRank → Rank
  | .show_ => .show_ | .halt => .halt

end Sys2Proof

namespace Sys2Proof.Machine

/-! ## Fades (R142, R143) -/

/-- R142: a new fade from the present level towards `level` in `time` tenths of a second. -/
def Fade.begin (x : Fade) (level time : Nat) : Fade :=
  { fine := if time = 0 then level * 256 else x.fine
    start := x.fine
    target := level * 256
    ticks := 2 * time
    time := time }

/-- R137: a finished fade at the present level. -/
def Fade.hold (x : Fade) : Fade := { fine := x.fine, start := x.fine, target := x.fine, ticks := 0, time := 0 }

/-- R143: one step. The difference divided by the ticks remaining, truncated towards zero. -/
def Fade.tick (x : Fade) : Fade :=
  if x.ticks = 0 then x
  else
    { x with
      fine := ((x.fine : Int) + ((x.target : Int) - (x.fine : Int)).tdiv (x.ticks : Int)).toNat
      ticks := x.ticks - 1 }

def ChannelRec.mapFade (c : ChannelRec) (f : Fade → Fade) : ChannelRec := { c with fade := f c.fade }

/-- R142: all three channels fade towards the request, with the request's fade time. -/
def Hlc.fadeTo (h : Hlc) (r : LightRequest) : Hlc :=
  { h with
    house := h.house.mapFade (·.begin r.house r.fade)
    aisle := h.aisle.mapFade (·.begin r.aisle r.fade)
    stage := h.stage.mapFade (·.begin r.stage r.fade) }

/-- R137: every channel holds where it stands. -/
def Hlc.holdAll (h : Hlc) : Hlc :=
  { h with
    house := h.house.mapFade Fade.hold
    aisle := h.aisle.mapFade Fade.hold
    stage := h.stage.mapFade Fade.hold }

/-- R143: one fade tick of an HLC. -/
def Hlc.tick (h : Hlc) : Hlc :=
  { h with
    house := h.house.mapFade Fade.tick
    aisle := h.aisle.mapFade Fade.tick
    stage := h.stage.mapFade Fade.tick }

/-! ## Arbitration (R136, R138) -/

/-- The effect on the channels of a table whose rank `r` was written (`w` present) or released: a fade to the
winner's request when the change was made at or above the winner, the hold when there is no winner left. -/
def Hlc.arbitrate (before : Option Rank) (r : Rank) (written : Bool) (h : Hlc) : Hlc :=
  if written then
    if h.winner = some r then
      match h.rank r with
      | some q => h.fadeTo q
      | none => h
    else h
  else if before = some r then
    match h.winner with
    | some r' =>
      match h.rank r' with
      | some q => h.fadeTo q
      | none => h
    | none => h.holdAll
  else h

/-- R136: a rank is written (`some`) or released (`none`), and the table is arbitrated. -/
def Hlc.change (h : Hlc) (r : Rank) (x : Option LightRequest) : Hlc :=
  (h.setRank r x).arbitrate h.winner r x.isSome

/-- R138, R195: the LIGHTS notice of a change of winner. -/
def lightsNotice (sc : Screen) (before : Option Rank) (h : Hlc) : NoticeBody :=
  match h.winner with
  | some r =>
    match h.rank r with
    | some q => .lights sc before (some r) q.house q.aisle q.stage q.fade (some q.origin)
    | none => .lights sc before (some r) 0 0 0 0 none
  | none => .lights sc before none (h.output .house) (h.output .aisle) (h.output .stage) 0 none

/-- R136: one event of an HLC's arbitration, with its LIGHTS notice on a change of winner. -/
def State.changeRank (s : State) (sc : Screen) (r : Rank) (x : Option LightRequest) : State :=
  let before := (s.hlc.get sc).winner
  let s' := s.modHlc sc (·.change r x)
  let h' := s'.hlc.get sc
  if h'.winner = before then s' else s'.note (lightsNotice sc before h')

/-- R135: a copy of a preset as a request. -/
def Preset.request (x : Preset) (n : Nat) : LightRequest := ⟨x.house, x.aisle, x.stage, x.fade, .preset n⟩

def Hlc.preset (h : Hlc) (n : Nat) : Preset := h.presets.getD n Preset.reset

/-- R135: the BSU's fire request, full levels at once. -/
def fireRequest : LightRequest := ⟨255, 255, 255, 0, .alarm⟩

def State.writeFireRank (s : State) (sc : Screen) : State := s.changeRank sc .fire (some fireRequest)
def State.releaseFireRank (s : State) (sc : Screen) : State := s.changeRank sc .fire none

/-- POST (R135): the HLC copies a posted preset into the SHOW or HALT rank. -/
def execPost (sc : Screen) (rank : ShowRank) (preset : Nat) (s : State) : Outcome :=
  let s := s.taken (.post sc rank preset)
  .next (s.changeRank sc rank.rank (some (((s.hlc.get sc).preset preset).request preset)))

/-- HALT_RELEASE (R135). -/
def execHaltRelease (sc : Screen) (s : State) : Outcome :=
  .next ((s.taken (.haltRelease sc)).changeRank sc .halt none)

/-- FIRE_WRITE (R135). -/
def execFireWrite (sc : Screen) (s : State) : Outcome :=
  .next ((s.taken (.fireWrite sc)).writeFireRank sc)

/-- FIRE_RELEASE (R135). -/
def execFireRelease (sc : Screen) (s : State) : Outcome :=
  .next ((s.taken (.fireRelease sc)).releaseFireRank sc)

/-- FADE_TICK (R143). -/
def execFadeTick (sc : Screen) (s : State) : Outcome := .next (s.modHlc sc Hlc.tick)

/-! ## Requests (R133, R140, R141, R146) -/

def setPreset (tag aud preset house aisle stage : Byte) (fade : Half) (s : State) : State :=
  match screenOf aud, presetOf preset with
  | some sc, some n =>
    (s.modHlc sc fun h =>
      { h with presets := h.presets.set n ⟨house.toNat, aisle.toNat, stage.toNat, min 600 fade.toNat⟩ }).answerSet
      0x23 tag .done (600 < fade.toNat)
  | _, _ => s.answerSet 0x23 tag .noSuch false

/-- SET_PRESET (R133). -/
def execSetPreset (tag aud preset house aisle stage : Byte) (fade : Half) (s : State) : Outcome :=
  .next (setPreset tag aud preset house aisle stage fade
    (s.taken (.setPreset tag aud preset house aisle stage fade)))

def setAuditorium (tag aud floor : Byte) (s : State) : State :=
  match screenOf aud with
  | some sc =>
    (s.modHlc sc fun h => { h with floor := max 16 floor.toNat }).answerSet 0x22 tag .done (floor.toNat < 16)
  | none => s.answerSet 0x22 tag .noSuch false

/-- SET_AUDITORIUM (R146). -/
def execSetAuditorium (tag aud floor : Byte) (s : State) : Outcome :=
  .next (setAuditorium tag aud floor (s.taken (.setAuditorium tag aud floor)))

/-- The request SET LIGHTS asks for, in the order of R140's checks. -/
def lightsAsked (h : Hlc) (mode preset house aisle stage : Byte) (fade : Half) : Result ⊕ LightRequest :=
  if mode = 0 then
    match presetOf preset with
    | some n =>
      let x := h.preset n
      .inr ⟨x.house, x.aisle, x.stage, min 600 fade.toNat, .preset n⟩
    | none => .inl .noSuch
  else if mode = 1 then .inr ⟨house.toNat, aisle.toNat, stage.toNat, min 600 fade.toNat, .explicit⟩
  else .inl .badField

def setLights (tag aud mode preset house aisle stage : Byte) (fade : Half) (s : State) : State :=
  match screenOf aud with
  | none => s.answerSet 0x40 tag .noSuch false
  | some sc =>
    match lightsAsked (s.hlc.get sc) mode preset house aisle stage fade with
    | .inl r => s.answerSet 0x40 tag r false
    | .inr q => (s.changeRank sc .console (some q)).answerSet 0x40 tag .done (600 < fade.toNat)

/-- SET_LIGHTS (R140). -/
def execSetLights (tag aud mode preset house aisle stage : Byte) (fade : Half) (s : State) : Outcome :=
  .next (setLights tag aud mode preset house aisle stage fade
    (s.taken (.setLights tag aud mode preset house aisle stage fade)))

def releaseLights (tag aud : Byte) (s : State) : State :=
  match screenOf aud with
  | none => s.answer 0x41 tag .noSuch
  | some sc =>
    if (s.hlc.get sc).console.isSome then (s.changeRank sc .console none).answer 0x41 tag .done
    else s.answer 0x41 tag .already

/-- RELEASE_LIGHTS (R141). -/
def execReleaseLights (tag aud : Byte) (s : State) : Outcome :=
  .next (releaseLights tag aud (s.taken (.releaseLights tag aud)))

/-! ## The mains phase tracker (R148 to R150) -/

/-- R148: the good run after an interval `p`. -/
def goodRunAfter (run : List Nat) (p : Nat) : List Nat :=
  if p < Config.intervalLow ∨ Config.intervalHigh < p then []
  else
    match run.getLast? with
    | none => [p]
    | some q =>
      if absDiff p q * 100 ≤ 3 * q then
        (if run.length < Config.lockRun then run else run.drop 1) ++ [p]
      else [p]

/-- The interval `p` joins a run that was not empty or starts one (R148's second and third rows). -/
def joins (run : List Nat) (p : Nat) : Bool :=
  (Config.intervalLow ≤ p && p ≤ Config.intervalHigh) &&
  match run.getLast? with
  | none => true
  | some q => absDiff p q * 100 ≤ 3 * q

/-- The integer mean of the 8 intervals of a full run (R148). -/
def runMean (run : List Nat) : Nat := run.sum / Config.lockRun

/-- R148 to R150: a lock change to each of the four HLCs, in the order of the auditoria (log entry 33). -/
def State.lockChanges (s : State) (locked : Bool) : State :=
  s.emitAll (Screen.all.map fun sc => .lockChange sc locked)

/-- R148, R149: a half-cycle event to each of the four HLCs, in the order of the auditoria (log entry 33). -/
def State.halfCycles (s : State) (halfPeriod : Nat) : State :=
  s.emitAll (Screen.all.map fun sc => .halfCycleEvent sc halfPeriod)

/-- R148, R149: an interval `p` has been measured. -/
def mainsInterval (p : Nat) (s : State) : State :=
  let ok := joins s.mpt.run p
  let run := goodRunAfter s.mpt.run p
  if s.mpt.locked then
    if ok then (s.modMpt fun m => { m with run := run, halfPeriod := runMean run }).halfCycles (runMean run)
    else
      ((s.modMpt fun m => { m with run := run, locked := false }).lockChanges false).note
        (.mains false .interval s.mpt.halfPeriod (min 65535 p))
  else if run.length = Config.lockRun then
    (((s.modMpt fun m => { m with run := run, locked := true, halfPeriod := runMean run }).lockChanges true).note
      (.mains true .locked (runMean run) p)).halfCycles (runMean run)
  else s.modMpt fun m => { m with run := run }

def zeroCross (time : Nat) (s : State) : State :=
  match s.mpt.previous with
  | none => s.modMpt fun m => { m with previous := some time, silenceTimer := true }
  | some t =>
    mainsInterval (time - t)
      (s.modMpt fun m =>
        { m with previous := some time, silenceTimer := true, lastInterval := some (min 65535 (time - t)) })

/-- ZERO_CROSS_PULSE (R148, R149): `time` is the µs at which the pulse is taken. -/
def execZeroCrossPulse (time : Nat) (s : State) : Outcome := .next (zeroCross time s)

def silence (s : State) : State :=
  if s.mpt.silenceTimer then
    let s' := s.modMpt fun m =>
      { m with previous := none, run := [], silenceTimer := false, locked := false }
    if s.mpt.locked then (s'.lockChanges false).note (.mains false .silence s.mpt.halfPeriod 0) else s'
  else s

/-- SILENCE_TIMER_EXPIRY (R150); a stopped timer does not run out. -/
def execSilenceTimerExpiry (s : State) : Outcome := .next (silence s)

/-! ## Firing (R151, R152) -/

/-- R151: the firing delay of output level `l` at half-period `p`; level 0 is not fired. -/
def firingDelay (l p : Nat) : Option Nat :=
  if l = 0 then none else some (p * (255 - (l * l + 127) / 255) / 256)

/-- R152: a channel at a half-cycle event: a running timer is cancelled, delay 0 is pulsed at once. -/
def ChannelRec.halfCycle (c : ChannelRec) (l p : Nat) : ChannelRec :=
  match firingDelay l p with
  | none => { c with delay := none, timer := false }
  | some 0 => { c with delay := some 0, timer := false, pulses := c.pulses + 1 }
  | some (d + 1) => { c with delay := some (d + 1), timer := true }

def Hlc.halfCycle (h : Hlc) (p : Nat) : Hlc :=
  { h with
    house := h.house.halfCycle (h.output .house) p
    aisle := h.aisle.halfCycle (h.output .aisle) p
    stage := h.stage.halfCycle (h.output .stage) p }

/-- HALF_CYCLE_EVENT (R151, R152). -/
def execHalfCycleEvent (sc : Screen) (halfPeriod : Nat) (s : State) : Outcome :=
  .next ((s.taken (.halfCycleEvent sc halfPeriod)).modHlc sc (·.halfCycle halfPeriod))

def ChannelRec.cancel (c : ChannelRec) : ChannelRec := { c with timer := false }

def Hlc.cancelFiring (h : Hlc) : Hlc :=
  { h with house := h.house.cancel, aisle := h.aisle.cancel, stage := h.stage.cancel }

/-- LOCK_CHANGE (R152): a change to UNLOCKED cancels every running firing timer. -/
def execLockChange (sc : Screen) (locked : Bool) (s : State) : Outcome :=
  let s := s.taken (.lockChange sc locked)
  .next (if locked then s else s.modHlc sc Hlc.cancelFiring)

def ChannelRec.fire (c : ChannelRec) : ChannelRec :=
  if c.timer then { c with timer := false, pulses := c.pulses + 1 } else c

/-- FIRING_TIMER_EXPIRY (R152): the channel's output is pulsed. -/
def execFiringTimerExpiry (sc : Screen) (ch : Channel) (s : State) : Outcome :=
  .next (s.modHlc sc fun h => h.setChannel ch (h.channel ch).fire)

end Sys2Proof.Machine
end

