-- ==== Sys2Proof/Machine/BoothSafety.lean ====
section
/-!
DEFINITION. Chapter 8 at the BSU: shutters, vetoes, the motor hold, the booth fire state, emergency stop, the booth
exhaust.
-/

namespace Sys2Proof.Machine

/-! ## Shutters (R155, R158) -/

def Bsu.setVeto (b : Bsu) (p : Proj) (v : Option VetoCause) : Bsu := { b with vetoes := b.vetoes.set p v }

/-- R155: a shutter's record when it is put into state `new`; outside RAISING its raise timer is stopped. -/
def Shutter.enter (x : Shutter) (new : ShutterState) (reason : Option DropReason) : Shutter :=
  { x with state := new, reason := reason.getD x.reason, raiseTimer := new = .raising }

/-- R155, R171: a change of a shutter's state, with its SHUTTER notice; the drop reason is given on a drop, and its
byte in the notice of a change to RAISING or RAISED is 0, the model's choice (log entry 29). -/
def State.moveShutter (s : State) (p : Proj) (new : ShutterState) (reason : Option DropReason) : State :=
  let old := (s.bsu.shutters.get p).state
  (s.modBsu (·.modShutter p (·.enter new reason))).note (.shutter p new old reason)

/-- A shutter that is RAISING or RAISED is put DROPPED; one already DROPPED keeps its drop reason (R158, R161,
R164). -/
def State.putDown (s : State) (p : Proj) (reason : DropReason) : State :=
  if (s.bsu.shutters.get p).state = .dropped then s else s.moveShutter p .dropped (some reason)

/-! ## Film break and stall (R161) -/

def breakVeto : BreakKind → VetoCause
  | .filmBreak => .filmBreak | .stall => .stall

/-- R161: a film break or a stall of projector `p`. -/
def State.breakAt (s : State) (p : Proj) (kind : BreakKind) (count : Nat) : State :=
  ((s.putDown p .break_).modBsu (·.setVeto p (some (breakVeto kind)))).emitAll
    [.motorStop p, .breakOrStallEvent p kind count]

/-- FILM_BREAK (R161). -/
def execFilmBreak (p : Proj) (count : Nat) (s : State) : Outcome :=
  .next ((s.taken (.filmBreak p count)).breakAt p .filmBreak count)

/-- STALL (R161). -/
def execStall (p : Proj) (count : Nat) (s : State) : Outcome :=
  .next ((s.taken (.stall p count)).breakAt p .stall count)

/-- REFUSED_START (R162): the fire event if the fire state is latched, and otherwise the emergency-stop event. -/
def execRefusedStart (p : Proj) (s : State) : Outcome :=
  let s := s.taken (.refusedStart p)
  .next (s.emit (if s.fireLatched then .fireEvent p.screen else .emergencyStopEvent p.screen))

/-! ## SAFETY notices (R171, 10.7) -/

/-- The SAFETY notice of an event: the record's reasons are those of `r`, the first reason and the link
projector are given while the fire state is latched. -/
def safetyNotice (b : Bsu) (event : SafetyEvent) (r : Option FireRecord) (added : Option FireReason) : NoticeBody :=
  .safety event b.fire.isSome (r.elim false (·.input)) (r.elim false (·.link)) (r.elim false (·.alarm))
    (b.fire.map (·.first)) (b.fire.bind (·.linkProj)) b.estop.isSome b.proven added

/-- R171: a SAFETY notice with the states after the event. -/
def State.noteSafety (s : State) (event : SafetyEvent) (added : Option FireReason) : State :=
  s.note (safetyNotice s.bsu event s.bsu.fire added)

/-! ## The booth fire state (R163 to R166) -/

/-- R163: a reason is a member of the record's set. -/
def FireRecord.has (r : FireRecord) : FireReason → Bool
  | .input => r.input | .portLink => r.link | .alarm => r.alarm

/-- R165: a reason joins the set. -/
def FireRecord.add (r : FireRecord) : FireReason → FireRecord
  | .input => { r with input := true }
  | .portLink => { r with link := true }
  | .alarm => { r with alarm := true }

/-- R163: the record of a latching; the link projector is given when the first reason is PORT LINK. -/
def FireRecord.first_ (reason : FireReason) (time : Nat) (linkProj : Option Proj) : FireRecord :=
  (⟨reason, false, false, false, time, linkProj⟩ : FireRecord).add reason

/-- R164 item 1: every shutter that is up is put DROPPED with reason FIRE. That they drop, and their SHUTTER notices
stand, in order of projector is the model's choice (log entry 33). -/
def State.dropAll (s : State) : List Proj → State
  | [] => s
  | p :: ps => (s.putDown p .fire).dropAll ps

/-- R164 items 3, 4 and 6: what the latching hands to the TRMs, the ALCs and the SHCs, in that order; within each item
the order of the numbers is the model's choice (log entry 33). -/
def fireHandouts : List Instr :=
  Proj.all.map .motorStop ++ Proj.all.map (fun p => .bsuExtinguish p .fire) ++ Screen.all.map .fireEvent

/-- R135, R164 item 5: the fire write, made at every HLC in the latching event; that the LIGHTS notices stand in the
order of the auditoria is the model's choice (log entry 6). -/
def State.fireWrites (s : State) : List Screen → State
  | [] => s
  | sc :: rest => (s.writeFireRank sc).fireWrites rest

/-- R135, R166: the fire release at every HLC, in the order of the auditoria (log entry 6). -/
def State.fireReleases (s : State) : List Screen → State
  | [] => s
  | sc :: rest => (s.releaseFireRank sc).fireReleases rest

/-- R163, R164: the fire state latches. -/
def State.latchFire (s : State) (reason : FireReason) (linkProj : Option Proj) : State :=
  let s := s.modBsu fun b => { b with fire := some (FireRecord.first_ reason s.bck.time linkProj) }
  let s := (s.dropAll Proj.all).modBsu fun b => { b with vetoes := Oct.const (some .fire) }
  ((s.emitAll fireHandouts).noteSafety .fireLatched none).fireWrites Screen.all

/-- R163, R165: an event of R163's table: the state latches, or the reason joins the set. -/
def State.fireSign (s : State) (reason : FireReason) (linkProj : Option Proj) : State :=
  match s.bsu.fire with
  | none => s.latchFire reason linkProj
  | some r =>
    if r.has reason then s
    else (s.modBsu fun b => { b with fire := some (r.add reason) }).noteSafety .fireReasonAdded (some reason)

def fireInputEdge (asserted : Bool) (s : State) : State :=
  let s := s.modBsu fun b => { b with fireInput := some asserted }
  if asserted then s.fireSign .input none else s

/-- FIRE_INPUT_EDGE (R163, R165). -/
def execFireInputEdge (asserted : Bool) (s : State) : Outcome :=
  .next (fireInputEdge asserted (s.cleanChange .fire asserted))

def raiseAlarm (tag : Byte) (s : State) : State :=
  match s.bsu.fire with
  | some r =>
    if r.alarm then s.answer 0x4A tag .already else (s.fireSign .alarm none).answer 0x4A tag .done
  | none => (s.fireSign .alarm none).answer 0x4A tag .done

/-- RAISE_ALARM (R165). -/
def execRaiseAlarm (tag : Byte) (s : State) : Outcome := .next (raiseAlarm tag (s.taken (.raiseAlarm tag)))

/-- R166: the fire state becomes clear; the notice carries the reasons the record held. -/
def State.clearFire (s : State) (r : FireRecord) : State :=
  let s := s.modBsu fun b => { b with fire := none }
  (s.note (safetyNotice s.bsu .fireCleared (some r) none)).fireReleases Screen.all

def clearFire (tag : Byte) (s : State) : State :=
  match s.bsu.fire with
  | none => s.answer 0x4B tag .already
  | some r =>
    if s.bsu.fireInput = some true then s.answer 0x4B tag (.notReady .inputAsserted)
    else (s.clearFire r).answer 0x4B tag .done

/-- CLEAR_FIRE (R166). -/
def execClearFire (tag : Byte) (s : State) : Outcome := .next (clearFire tag (s.taken (.clearFire tag)))

/-! ## Emergency stop (R167, R168) -/

/-- R167 items 2 and 3; within each item the order of the numbers is the model's choice (log entry 33). -/
def estopHandouts : List Instr := Proj.all.map .motorStop ++ Screen.all.map .emergencyStopEvent

/-- R167: an asserted emergency-stop input latches the state while it is clear. -/
def State.estopSign (s : State) : State :=
  if s.estopLatched then s
  else
    ((s.modBsu fun b =>
      { b with estop := some s.bck.time, vetoes := Oct.const (some .estop) }).emitAll estopHandouts).noteSafety
      .estopLatched none

def estopInputEdge (asserted : Bool) (s : State) : State :=
  let s := s.modBsu fun b => { b with estopInput := some asserted }
  if asserted then s.estopSign else s

/-- EMERGENCY_STOP_INPUT_EDGE (R167). -/
def execEmergencyStopInputEdge (asserted : Bool) (s : State) : Outcome :=
  .next (estopInputEdge asserted (s.cleanChange .estop asserted))

/-- R168: the vetoes of the projectors whose shutters are RAISED are cleared. -/
def Bsu.clearRaised (b : Bsu) : List Proj → Bsu
  | [] => b
  | p :: ps => (if (b.shutters.get p).state = .raised then b.setVeto p none else b).clearRaised ps

def clearEstop (tag : Byte) (s : State) : State :=
  if s.estopLatched = false then s.answer 0x4C tag .already
  else if s.bsu.estopInput = some true then s.answer 0x4C tag (.notReady .inputAsserted)
  else
    ((s.modBsu fun b => { b with estop := none }.clearRaised Proj.all).noteSafety .estopCleared none).answer 0x4C tag
      .done

/-- CLEAR_ESTOP (R168). -/
def execClearEstop (tag : Byte) (s : State) : Outcome := .next (clearEstop tag (s.taken (.clearEstop tag)))

/-! ## Raising and dropping shutters (R156 to R159) -/

/-- R156 items 2 to 6: why a raise of shutter `p` is not accepted. -/
def State.raiseRefusal (s : State) (p : Proj) : Option Result :=
  let x := s.bsu.shutters.get p
  let t := s.trm.get p
  if x.state ≠ .dropped then some .already
  else if s.fireLatched then some .fireLock
  else if t.loopClosed ≠ some true then some (.notReady .loop)
  else if t.state ≠ .stopped then some (.notReady .transport)
  else if x.up = some true then some (.notReady .sensor)
  else none

def raiseShutter (tag proj : Byte) (s : State) : State :=
  match projOf proj with
  | none => s.answer 0x48 tag .noSuch
  | some p =>
    match s.raiseRefusal p with
    | some r => s.answer 0x48 tag r
    | none => (s.moveShutter p .raising none).answer 0x48 tag .accepted

/-- RAISE_SHUTTER (R156). -/
def execRaiseShutter (tag proj : Byte) (s : State) : Outcome :=
  .next (raiseShutter tag proj (s.taken (.raiseShutter tag proj)))

def dropShutter (tag proj : Byte) (s : State) : State :=
  match projOf proj with
  | none => s.answer 0x49 tag .noSuch
  | some p =>
    if (s.bsu.shutters.get p).state = .dropped then s.answer 0x49 tag .already
    else ((s.putDown p .console).emit (.shutterDropped p .console)).answer 0x49 tag .done

/-- DROP_SHUTTER (R158). -/
def execDropShutter (tag proj : Byte) (s : State) : Outcome :=
  .next (dropShutter tag proj (s.taken (.dropShutter tag proj)))

/-- R160: the veto of a projector whose shutter reaches RAISED. -/
def State.vetoAtRaised (s : State) : Option VetoCause := if s.estopLatched then some .estop else none

/-- R157, R160: the raise of shutter `p` is complete. -/
def State.completeRaise (s : State) (p : Proj) : State :=
  (s.moveShutter p .raised none).modBsu (·.setVeto p s.vetoAtRaised)

/-- R159: an unsolicited drop of shutter `p`. -/
def State.linkParted (s : State) (p : Proj) : State :=
  ((s.putDown p .link).fireSign .portLink (some p)).emit (.shutterDropped p .link)

def shutterSensorEdge (p : Proj) (up : Bool) (s : State) : State :=
  let s := s.modBsu (·.modShutter p fun x => { x with up := some up })
  match (s.bsu.shutters.get p).state, up with
  | .raising, true => s.completeRaise p
  | .raised, false => s.linkParted p
  | _, _ => s

/-- SHUTTER_UP_SENSOR_EDGE (R157, R159). -/
def execShutterUpSensorEdge (p : Proj) (up : Bool) (s : State) : Outcome :=
  .next (shutterSensorEdge p up (s.cleanChange (.shutterUp p) up))

def raiseExpiry (p : Proj) (s : State) : State :=
  let x := s.bsu.shutters.get p
  if x.raiseTimer = true ∧ x.state = .raising then (s.putDown p .fault).emit (.shutterDropped p .fault) else s

/-- RAISE_TIMER_EXPIRY (R157); a stopped timer does not run out. -/
def execRaiseTimerExpiry (p : Proj) (s : State) : Outcome := .next (raiseExpiry p s)

/-! ## The booth exhaust (R169, R170) -/

/-- R169: an edge of the exhaust-proving input. -/
def Bsu.exhaustEdge (b : Bsu) (proven : Bool) : Bsu :=
  if b.proven then { b with exhaustInput := some proven, lossTimer := !proven }
  else { b with exhaustInput := some proven, provingTimer := proven }

/-- EXHAUST_PROVING_EDGE (R169). -/
def execExhaustProvingEdge (proven : Bool) (s : State) : Outcome :=
  .next ((s.cleanChange .exhaust proven).modBsu (·.exhaustEdge proven))

def provingExpiry (s : State) : State :=
  if s.bsu.provingTimer = true ∧ s.bsu.proven = false then
    (s.modBsu fun b => { b with proven := true, provingTimer := false }).noteSafety .exhaustProven none
  else s

/-- PROVING_TIMER_EXPIRY (R169); a stopped timer does not run out. -/
def execProvingTimerExpiry (s : State) : Outcome := .next (provingExpiry s)

/-- R170: the extinguish handed to every ALC, in the order of the lamps (log entry 33). -/
def exhaustHandouts : List Instr := Proj.all.map fun p => .bsuExtinguish p .exhaust

def lossExpiry (s : State) : State :=
  if s.bsu.lossTimer = true ∧ s.bsu.proven = true then
    ((s.modBsu fun b => { b with proven := false, lossTimer := false }).emitAll exhaustHandouts).noteSafety
      .exhaustLost none
  else s

/-- LOSS_TIMER_EXPIRY (R169, R170); a stopped timer does not run out. -/
def execLossTimerExpiry (s : State) : Outcome := .next (lossExpiry s)

end Sys2Proof.Machine
end

