-- ==== Sys2Proof/Machine/Changeovers.lean ====
section
/-!
DEFINITION. Changeovers at the SHC (sections 3.4 to 3.6): cue windows, the motor cue, the changeover cue, the
readiness test, the changeover action, the missed changeover, CHANGE NOW; and the lighting point step (R34) and
the service record (R125, R126), which a changeover and a picture on share.
-/

namespace Sys2Proof.Machine

/-! ## Lighting points (R34) -/

/-- R34: the last-listed point that `q` admits. -/
def lastPoint (q : LightPoint → Bool) (points : List LightPoint) : Option LightPoint :=
  (points.filter q).getLast?

def State.postPoint (s : State) (sc : Screen) (x : Option LightPoint) : State :=
  match x with
  | some x => s.postShow sc x.preset
  | none => s

/-- R34: the lighting point step of a reel that becomes ON_SCREEN at count `n`. -/
def State.lightStep (s : State) (sc : Screen) (r : Reel) (n : Nat) : State :=
  s.postPoint sc (lastPoint (fun x => x.offset ≤ n) r.points)

/-- R34: the count of the ON_SCREEN entry reaches `n`. -/
def State.lightReached (s : State) (sc : Screen) (r : Reel) (n : Nat) : State :=
  s.postPoint sc (lastPoint (fun x => x.offset = n) r.points)

/-! ## The service record (R125, R126) -/

/-- R125: the service record of entry `i` of the active bank. -/
def Shc.serviceOf (c : Shc) (sc : Screen) (i : Nat) (r : Reel) : ServiceRecord :=
  ⟨sc, c.active, i, r.title, c.runFrames i r, c.setup.f, false⟩

/-- R125: the SHC writes the service record of the entry's lamp. -/
def State.serve (s : State) (sc : Screen) (i : Nat) (r : Reel) : State :=
  s.modAlc (sc.proj r.side) fun a => { a with service := some ((s.shc.get sc).serviceOf sc i r) }

/-- R126: the SHC removes the service record. -/
def State.unserve (s : State) (p : Proj) : State := s.modAlc p fun a => { a with service := none }

/-! ## Cues (R60, R91) -/

/-- R60, R88: the last frame at which a window centred on F can fire. -/
def lastFrame (mode : CueMode) (w centre : Nat) : Nat :=
  match mode with
  | .counted => centre
  | .sensed => centre + w

/-- R91: the signed difference of the count from F, carried within −96 to 96. -/
def cueDiff (count centre : Nat) : Int := max (-96) (min 96 ((count : Int) - (centre : Int)))

/-- R91: the CUE notice. -/
def State.noteCue (s : State) (p : Proj) (cue : Cue) (how : FiredAs) (centre count : Nat) : State :=
  s.note (.cue p.screen p cue how centre count (cueDiff count centre))

/-! ## Readiness (R65) -/

/-- R65: the first condition of readiness that projector `p` does not meet. -/
def State.unready (s : State) (p : Proj) : Option NotReady :=
  if s.atSpeed p = false then some .transport
  else if s.lampStable p = false then some .lamp
  else if s.shutterRaised p = false then some .shutter
  else if s.vetoClear p = false then some .veto
  else none

/-! ## The changeover action and the missed changeover (R66, R67)

`reopen` is the opening of cue windows by R60, which may itself fire a cue. -/

/-- R66 items 1 to 3 and 5, and the current index of item 4. -/
def Shc.changeover (c : Shc) (outIndex : Nat) (out : Reel) (inIndex : Nat) (inc : Reel) : Shc :=
  let c := (c.setDouser out.side false).setDouser inc.side true
  let c := { c with sound := inc.side, muted := false }
  let c := (c.enter inIndex .onScreen).enter outIndex .runningOut
  { c with current := inIndex, progress := .none, strikeFrame := none }

/-- R66: the CHANGEOVER notice of a changeover made. -/
def State.noteMade (s : State) (sc : Screen) (how : FiredAs) (outIndex : Nat) (out : Reel) (nOut inIndex : Nat)
    (inc : Reel) (nIn : Nat) : State :=
  s.note (.changeover sc true how none outIndex out.title nOut (some inIndex) inc.title nIn
    ((nIn : Int) - ((s.shc.get sc).setup.l0 : Int)))

/-- R66: the changeover action. -/
def State.changeover (s : State) (reopen : State → State) (sc : Screen) (how : FiredAs) (outIndex : Nat)
    (out : Reel) (inIndex : Nat) (inc : Reel) : State :=
  let nOut := (s.trm.get (sc.proj out.side)).count
  let nIn := (s.trm.get (sc.proj inc.side)).count
  let s := s.modShc sc (·.changeover outIndex out inIndex inc)
  let s := (s.unserve (sc.proj out.side)).serve sc inIndex inc
  let s := (s.emit (.cueWindowClose (sc.proj out.side))).lightStep sc inc nIn
  ((reopen s).noteMade sc how outIndex out nOut inIndex inc nIn).evaluate sc

/-- R67: an ARMED incoming entry is stopped, if its motor is on by the SHC's own last command (log entry 7), and
returns to LOADED. -/
def State.standDown (s : State) (sc : Screen) (i : Nat) (r : Reel) : State :=
  let s := if (s.shc.get sc).motor r.side then s.motorOff (sc.proj r.side) else s
  s.modShc sc fun c => { c.enter i .loaded with strikeFrame := none }

/-- R67: a missed changeover. -/
def State.missChangeover (s : State) (sc : Screen) (how : FiredAs) (reason : NotReady) (outIndex : Nat)
    (out : Reel) : State :=
  let nOut := (s.trm.get (sc.proj out.side)).count
  match (s.shc.get sc).holding .armed with
  | some (i, r) =>
    (s.standDown sc i r).note (.changeover sc false how (some reason) outIndex out.title nOut (some i) r.title
      (s.trm.get (sc.proj r.side)).count 0)
  | none =>
    (s.dropStrikeFrame sc).note (.changeover sc false how (some reason) outIndex out.title nOut none 0 0 0)

/-! ## The two cues (R62, R64) -/

def State.setProgress (s : State) (sc : Screen) (x : CueProgress) : State :=
  s.modShc sc fun c => { c with progress := x }

/-- R64: the changeover cue of the ON_SCREEN entry `i` fires. -/
def State.changeoverCue (s : State) (reopen : State → State) (sc : Screen) (how : FiredAs) (i : Nat) (r : Reel) :
    State :=
  let c := s.shc.get sc
  let s := (s.setProgress sc .changeoverFired).noteFault sc (i + 1) (c.next i)
  match c.next i with
  | .interval _ _ _ => s
  | .finish => s
  | .fault _ _ => s.missChangeover sc how .notArmed i r
  | .reel j q =>
    if (c.entry j).state = .armed then
      match s.unready (sc.proj q.side) with
      | none => s.changeover reopen sc how i r j q
      | some x => s.missChangeover sc how x i r
    else s.missChangeover sc how .notArmed i r

/-- R62: the motor cue of the ON_SCREEN entry fires. The motor command of the ARMED entry is the SHC's own last one
(log entry 7). -/
def State.motorCue (s : State) (reopen : State → State) (sc : Screen) : State :=
  let s := reopen (s.setProgress sc .motorFired)
  match (s.shc.get sc).holding .armed with
  | some (i, r) => if (s.shc.get sc).motor r.side then s else s.startIncoming sc i r
  | none => s

/-- R60: the SHC opens the window of the next cue of the ON_SCREEN entry, or fires the cue itself when the
count has already reached the window's last frame. `fuel` bounds the cues fired in one event: two for the
entry, and two more for each changeover made on the way; a further changeover needs an incoming armed and at
speed, which no arming of the same event can be. -/
def State.openWindows (sc : Screen) : (fuel : Nat) → State → State
  | 0, s => s
  | n + 1, s =>
    let c := s.shc.get sc
    match c.holding .onScreen with
    | none => s
    | some (i, r) =>
      let p := sc.proj r.side
      let count := (s.trm.get p).count
      match c.progress with
      | .none =>
        if count < lastFrame c.setup.cueMode c.setup.w r.fm then s.emit (.cueWindowOpen p .motor r.fm)
        else (s.noteCue p .motor .counted r.fm count).motorCue (State.openWindows sc n) sc
      | .motorFired =>
        if count < lastFrame c.setup.cueMode c.setup.w r.fc then s.emit (.cueWindowOpen p .changeover r.fc)
        else (s.noteCue p .changeover .counted r.fc count).changeoverCue (State.openWindows sc n) sc .counted i r
      | .changeoverFired => s

/-- The fuel of R60 (see `State.openWindows`). -/
def cueFuel : Nat := 8

/-- R60: cue windows are opened. -/
def State.reopenWindows (s : State) (sc : Screen) : State := s.openWindows sc cueFuel

/-- R61: a fired cue of projector `p` is acted on when the screen is SHOWING and the projector holds the
ON_SCREEN entry; the TRM's window for it is closed. -/
def cueFired (p : Proj) (cue : Cue) (how : FiredAs) (s : State) : State :=
  let sc := p.screen
  let c := s.shc.get sc
  match c.state, c.holdingOn .onScreen p.side with
  | .showing, some (i, r) =>
    let s := s.emit (.cueWindowClose p)
    match cue with
    | .motor => s.motorCue (State.openWindows sc cueFuel) sc
    | .changeover => s.changeoverCue (State.openWindows sc cueFuel) sc how i r
  | _, _ => s

/-- CUE_FIRED_EVENT (R61). -/
def execCueFiredEvent (p : Proj) (cue : Cue) (how : FiredAs) (count : Nat) (s : State) : Outcome :=
  .next (cueFired p cue how (s.taken (.cueFiredEvent p cue how count)))

/-! ## CHANGE NOW (R69) -/

def changeNow (tag screen : Byte) (s : State) : State :=
  match screenOf screen with
  | none => s.answer 0x33 tag .noSuch
  | some sc =>
    let c := s.shc.get sc
    if c.state ≠ .showing then s.answer 0x33 tag .busy
    else
      match c.holding .onScreen, c.holding .armed with
      | some (i, r), some (j, q) =>
        match s.unready (sc.proj q.side) with
        | none => (s.changeover (State.openWindows sc cueFuel) sc .console i r j q).answer 0x33 tag .done
        | some x => s.answer 0x33 tag (.notReady x)
      | _, _ => s.answer 0x33 tag (.notReady .notArmed)

/-- CHANGE_NOW (R69). -/
def execChangeNow (tag screen : Byte) (s : State) : Outcome :=
  .next (changeNow tag screen (s.taken (.changeNow tag screen)))

end Sys2Proof.Machine
end

