-- ==== Sys2Proof/Machine/Clock.lean ====
section
/-!
DEFINITION. The Booth Clock (section 9.8): the second, SET CLOCK and READ CLOCK.
-/

namespace Sys2Proof.Machine

/-- R185: the booth time after a second; at its greatest value it is not raised. -/
def nextTime (t : Nat) : Nat := satSucc Config.maxTime t

/-- R185, R186: one event to each of the four SHCs, in the order of the screens (log entry 33). -/
def State.tellShcs (s : State) (e : Screen → Instr) : State := s.emitAll (Screen.all.map e)

/-- SECOND_TIMER_EXPIRY (R185). -/
def execSecondTimerExpiry (s : State) : Outcome :=
  let t := nextTime s.bck.time
  .next ((s.modBck fun b => { b with time := t }).tellShcs fun sc => .boothSecondEvent sc t)

/-- R186: the clock is set. -/
def setClock (tag : Byte) (time : Word) (s : State) : State :=
  let old := s.bck.time
  ((s.modBck fun _ => ⟨time.toNat, true, true⟩).tellShcs fun sc => .clockSetEvent sc old time.toNat).reply 0x11 tag
    .done none (bytes4 old)

/-- SET_CLOCK (R186). -/
def execSetClock (tag : Byte) (time : Word) (s : State) : Outcome :=
  .next (setClock tag time (s.taken (.setClock tag time)))

def readClock (tag : Byte) (s : State) : State :=
  s.reply 0x12 tag .done none (bytes4 s.bck.time ++ flag s.bck.isSet)

/-- READ_CLOCK (R186). -/
def execReadClock (tag : Byte) (s : State) : Outcome := .next (readClock tag (s.taken (.readClock tag)))

end Sys2Proof.Machine
end

