-- ==== Sys2Proof/Decode.lean ====
section
/-!
DEFINITION. `decodeTableWord`, and the request frames of chapter 10: which request the KIND, TAG and body of a
frame are (10.4, R191), and the KIND, TAG and body that the console sends for a request.
-/

namespace Sys2Proof

/-- The table of operations gives its rows no bits, so no word spells a command. -/
def decodeTableWord (_nbits _w : Nat) : Option Instr := none

/-! ## Fields of two and four bytes, most significant first (R190) -/

def halfOf (a b : Byte) : Half := a ++ b
def wordOf (a b c d : Byte) : Word := a ++ b ++ c ++ d

def Half.hi (x : Half) : Byte := x.extractLsb' 8 8
def Half.lo (x : Half) : Byte := x.extractLsb' 0 8
def halfBytes (x : Half) : List Byte := [Half.hi x, Half.lo x]
def wordBytes (x : Word) : List Byte :=
  [x.extractLsb' 24 8, x.extractLsb' 16 8, x.extractLsb' 8 8, x.extractLsb' 0 8]

/-! ## Bodies -/

/-- A request without fields. -/
def body0 (i : Instr) : List Byte → Option Instr
  | [] => some i
  | _ => none

def body1 (f : Byte → Instr) : List Byte → Option Instr
  | [a] => some (f a)
  | _ => none

def body2 (f : Byte → Byte → Instr) : List Byte → Option Instr
  | [a, b] => some (f a b)
  | _ => none

def setClockBody (tag : Byte) : List Byte → Option Instr
  | [a, b, c, d] => some (.setClock tag (wordOf a b c d))
  | _ => none

def setScreenBody (tag : Byte) : List Byte → Option Instr
  | [sc, f, l1, l0, mode, w, a1, a0, policy, g1, g0, limit, pre, brk, fin] =>
    some (.setScreen tag sc
      { f := f, l0 := halfOf l1 l0, cueMode := mode, w := w, allowance := halfOf a1 a0, policy := policy,
        grace := halfOf g1 g0, limit := limit, preShow := pre, brk := brk, fin := fin })
  | _ => none

def setLampBody (tag : Byte) : List Byte → Option Instr
  | [lamp, v1, v0, d, kf, band, b, inom, imin, s1, s0, limit, m1, m0, auto] =>
    some (.setLamp tag lamp
      { vset := halfOf v1 v0, d := d, kf := kf, band := band, b := b, inom := inom, imin := imin,
        lead := halfOf s1 s0, limit := limit, margin := halfOf m1 m0, auto := auto })
  | _ => none

def setPresetBody (tag : Byte) : List Byte → Option Instr
  | [aud, preset, h, a, s, t1, t0] => some (.setPreset tag aud preset h a s (halfOf t1 t0))
  | _ => none

def writeEntryBody (tag : Byte) : List Byte → Option Instr
  | sc :: index :: kind :: area => if area.length = 16 then some (.writeEntry tag sc index kind area) else none
  | _ => none

def readEntryBody (tag : Byte) : List Byte → Option Instr
  | [sc, bank, index] => some (.readEntry tag sc bank index)
  | _ => none

def switchProgrammeBody (tag : Byte) : List Byte → Option Instr
  | [sc, a, b, c, d, e, f, g, h, n1, n0] =>
    some (.switchProgramme tag sc (wordOf a b c d) (wordOf e f g h) (halfOf n1 n0))
  | _ => none

/-- CONFIRM REEL: with confirm clear it is the withdrawal of R8. -/
def confirmReelBody (tag : Byte) : List Byte → Option Instr
  | [sc, bank, index, confirm] =>
    some (if confirm = 0 then .withdrawConfirmation tag sc bank index else .confirmReel tag sc bank index confirm)
  | _ => none

def setTrimBody (tag : Byte) : List Byte → Option Instr
  | [lamp, l1, l0] => some (.setTrim tag lamp (halfOf l1 l0))
  | _ => none

def setLightsBody (tag : Byte) : List Byte → Option Instr
  | [aud, mode, preset, h, a, s, t1, t0] => some (.setLights tag aud mode preset h a s (halfOf t1 t0))
  | _ => none

/-! ## Kinds (10.4) -/

/-- The reading of a body for a request kind; absent for a KIND that is no request kind. -/
def bodyDecoder (kind tag : Byte) : Option (List Byte → Option Instr) :=
  if kind = 0x10 then some (body0 (.identify tag))
  else if kind = 0x11 then some (setClockBody tag)
  else if kind = 0x12 then some (body0 (.readClock tag))
  else if kind = 0x13 then some (body1 (.boothReset tag))
  else if kind = 0x14 then some (body1 (.quiet tag))
  else if kind = 0x20 then some (setScreenBody tag)
  else if kind = 0x21 then some (setLampBody tag)
  else if kind = 0x22 then some (body2 (.setAuditorium tag))
  else if kind = 0x23 then some (setPresetBody tag)
  else if kind = 0x28 then some (writeEntryBody tag)
  else if kind = 0x29 then some (body1 (.clearStaged tag))
  else if kind = 0x2A then some (readEntryBody tag)
  else if kind = 0x2B then some (switchProgrammeBody tag)
  else if kind = 0x2C then some (body1 (.cancelSwitch tag))
  else if kind = 0x2D then some (confirmReelBody tag)
  else if kind = 0x30 then some (body1 (.start tag))
  else if kind = 0x31 then some (body1 (.resume tag))
  else if kind = 0x32 then some (body1 (.abort tag))
  else if kind = 0x33 then some (body1 (.changeNow tag))
  else if kind = 0x38 then some (body1 fun lamp => .strike (.console tag lamp))
  else if kind = 0x39 then some (body1 fun lamp => .extinguish (.console tag lamp))
  else if kind = 0x3A then some (setTrimBody tag)
  else if kind = 0x40 then some (setLightsBody tag)
  else if kind = 0x41 then some (body1 (.releaseLights tag))
  else if kind = 0x48 then some (body1 (.raiseShutter tag))
  else if kind = 0x49 then some (body1 (.dropShutter tag))
  else if kind = 0x4A then some (body0 (.raiseAlarm tag))
  else if kind = 0x4B then some (body0 (.clearFire tag))
  else if kind = 0x4C then some (body0 (.clearEstop tag))
  else if kind = 0x50 then some (body2 (.readScreen tag))
  else if kind = 0x51 then some (body1 (.readProjector tag))
  else if kind = 0x52 then some (body2 (.readLamp tag))
  else if kind = 0x53 then some (body2 (.readAuditorium tag))
  else if kind = 0x54 then some (body1 (.readSafety tag))
  else none

/-- What the Console Link makes of a frame (R179). -/
inductive Decoded where
  | unknownKind
  | badLength
  | request (i : Instr)
  deriving DecidableEq, Repr

/-- R179, R191: a frame is a request, or its KIND or its body length is refused. -/
def decodeRequest (kind tag : Byte) (body : List Byte) : Decoded :=
  match bodyDecoder kind tag with
  | none => .unknownKind
  | some f =>
    match f body with
    | none => .badLength
    | some i => .request i

/-! ## The console's side (10.4) -/

/-- The KIND, TAG and body of a request; absent for a command that is no request. -/
def encodeRequest : Instr → Option (Byte × Byte × List Byte)
  | .identify tag => some (0x10, tag, [])
  | .setClock tag time => some (0x11, tag, wordBytes time)
  | .readClock tag => some (0x12, tag, [])
  | .boothReset tag force => some (0x13, tag, [force])
  | .quiet tag setting => some (0x14, tag, [setting])
  | .setScreen tag sc x =>
    some (0x20, tag, [sc, x.f] ++ halfBytes x.l0 ++ [x.cueMode, x.w] ++ halfBytes x.allowance ++ [x.policy] ++
      halfBytes x.grace ++ [x.limit, x.preShow, x.brk, x.fin])
  | .setLamp tag lamp x =>
    some (0x21, tag, [lamp] ++ halfBytes x.vset ++ [x.d, x.kf, x.band, x.b, x.inom, x.imin] ++ halfBytes x.lead ++
      [x.limit] ++ halfBytes x.margin ++ [x.auto])
  | .setAuditorium tag aud floor => some (0x22, tag, [aud, floor])
  | .setPreset tag aud preset h a s fade => some (0x23, tag, [aud, preset, h, a, s] ++ halfBytes fade)
  | .writeEntry tag sc index kind area => some (0x28, tag, [sc, index, kind] ++ area)
  | .clearStaged tag sc => some (0x29, tag, [sc])
  | .readEntry tag sc bank index => some (0x2A, tag, [sc, bank, index])
  | .switchProgramme tag sc t0 tc np =>
    some (0x2B, tag, [sc] ++ wordBytes t0 ++ wordBytes tc ++ halfBytes np)
  | .cancelSwitch tag sc => some (0x2C, tag, [sc])
  | .confirmReel tag sc bank index confirm => some (0x2D, tag, [sc, bank, index, confirm])
  | .withdrawConfirmation tag sc bank index => some (0x2D, tag, [sc, bank, index, 0])
  | .start tag sc => some (0x30, tag, [sc])
  | .resume tag sc => some (0x31, tag, [sc])
  | .abort tag sc => some (0x32, tag, [sc])
  | .changeNow tag sc => some (0x33, tag, [sc])
  | .strike (.console tag lamp) => some (0x38, tag, [lamp])
  | .extinguish (.console tag lamp) => some (0x39, tag, [lamp])
  | .setTrim tag lamp length => some (0x3A, tag, [lamp] ++ halfBytes length)
  | .setLights tag aud mode preset h a s fade =>
    some (0x40, tag, [aud, mode, preset, h, a, s] ++ halfBytes fade)
  | .releaseLights tag aud => some (0x41, tag, [aud])
  | .raiseShutter tag p => some (0x48, tag, [p])
  | .dropShutter tag p => some (0x49, tag, [p])
  | .raiseAlarm tag => some (0x4A, tag, [])
  | .clearFire tag => some (0x4B, tag, [])
  | .clearEstop tag => some (0x4C, tag, [])
  | .readScreen tag sc part => some (0x50, tag, [sc, part])
  | .readProjector tag p => some (0x51, tag, [p])
  | .readLamp tag lamp part => some (0x52, tag, [lamp, part])
  | .readAuditorium tag aud part => some (0x53, tag, [aud, part])
  | .readSafety tag part => some (0x54, tag, [part])
  | _ => none

end Sys2Proof
end

