-- ==== Sys2Proof/Machine/Messages.lean ====
section
/-!
DEFINITION. The bytes of replies and notices (chapter 10): the frame of 10.1, the reply body of R191, the
notice layouts of 10.5. The queues hold replies and notices as data; these functions are the bytes the
transmitter puts on the line for them.
-/

namespace Sys2Proof.Machine

/-- The SUM byte: with it the bytes from LEN through SUM add to 0 modulo 256 (10.1, R181). -/
def sumByte (bytes : List Byte) : Byte := 0 - bytes.foldl (· + ·) 0

/-- A whole frame: MARK, LEN, KIND, TAG, body, SUM (10.1). -/
def frameBytes (kind tag : Byte) (body : List Byte) : List Byte :=
  let inner := BitVec.ofNat 8 (body.length + 2) :: kind :: tag :: body
  Config.mark :: inner ++ [sumByte inner]

/-! ## Replies (R191) -/

/-- The reply body: the result code, the reason byte of NOT READY, the adjusted flag of the SET kinds, and
the reply data. -/
def Reply.body (r : Reply) : List Byte :=
  [r.result.code] ++
  (match r.result with | .notReady x => bytes1 x.code | _ => []) ++
  (match r.adjusted with | some a => flag a | none => []) ++
  r.data

def Reply.bytes (r : Reply) : List Byte := frameBytes r.kind r.tag r.body

/-! ## Notices (R194, 10.5) -/

def NoticeBody.code : NoticeBody → Byte
  | .restart .. => 0xE0
  | .noticesLost .. => 0xE1
  | .screenState .. => 0xE2
  | .cue .. => 0xE3
  | .changeover .. => 0xE4
  | .entry .. => 0xE5
  | .lamp .. => 0xE6
  | .trimLow .. => 0xE7
  | .shutter .. => 0xE8
  | .safety .. => 0xE9
  | .mains .. => 0xEA
  | .switch .. => 0xEB
  | .schedule .. => 0xEC
  | .performanceEnd .. => 0xED
  | .lights .. => 0xEE
  | .programmeFault .. => 0xEF

/-- The fields after the booth time, in the order of 10.5. -/
def NoticeBody.fields : NoticeBody → List Byte
  | .restart cause rate => bytes1 cause.code ++ bytes1 rate.code
  | .noticesLost count => bytes1 count
  | .screenState sc new old cause current title count prep first reasonProj point added =>
    bytes1 sc.num ++ bytes1 new.code ++ bytes1 old.code ++ bytes1 cause.code ++ bytes1 current ++
    bytes2 title ++ bytes2 count ++ opt1 PrepKind.code prep ++ opt1 HaltReason.code first ++
    opt1 Proj.num reasonProj ++ opt1 ResumePoint.code point ++ opt1 HaltReason.code added
  | .cue sc p which how centre count diff =>
    bytes1 sc.num ++ bytes1 p.num ++ bytes1 which.code ++ bytes1 how.code ++ bytes2 centre ++
    bytes2 count ++ bytesInt1 diff
  | .changeover sc made how reason outIndex outTitle nOut inIndex inTitle nIn slip =>
    bytes1 sc.num ++ bytes1 (if made then 1 else 2) ++ bytes1 how.code ++ opt1 NotReady.code reason ++
    bytes1 outIndex ++ bytes2 outTitle ++ bytes2 nOut ++ indexByte inIndex ++ bytes2 inTitle ++
    bytes2 nIn ++ bytesInt4 slip
  | .entry sc bank index p title reason short count lampReason =>
    bytes1 sc.num ++ bytes1 bank.code ++ bytes1 index ++ bytes1 p.num ++ bytes2 title ++
    bytes1 reason.code ++ flag short ++ bytes2 count ++ opt1 NotReady.code lampReason
  | .lamp p new old cause attempts withheld vm im remaining =>
    bytes1 p.num ++ bytes1 new.code ++ bytes1 old.code ++ bytes1 cause.code ++ bytes1 cause.sourceCode ++
    opt1 id attempts ++ opt1 Withheld.code withheld ++ bytes2 vm ++ bytes1 im ++ bytes2 remaining
  | .trimLow sc p bank index title count runFrames avail needed remaining =>
    bytes1 sc.num ++ bytes1 p.num ++ bytes1 bank.code ++ bytes1 index ++ bytes2 title ++ bytes2 count ++
    bytes2 runFrames ++ bytes4 avail ++ bytes2 needed ++ bytes2 remaining ++ bytes1 1
  | .shutter p new old reason =>
    bytes1 p.num ++ bytes1 new.code ++ bytes1 old.code ++ opt1 DropReason.code reason
  | .safety event latched input link alarm first linkProj estop exhaust added =>
    bytes1 event.code ++ flag latched ++ flag input ++ flag link ++ flag alarm ++
    opt1 FireReason.code first ++ opt1 Proj.num linkProj ++ flag estop ++ flag exhaust ++
    opt1 FireReason.code added
  | .mains locked cause halfPeriod interval =>
    flag locked ++ bytes1 cause.code ++ bytes2 halfPeriod ++ bytes2 interval
  | .switch sc taken t0 tc np =>
    bytes1 sc.num ++ bytes1 (if taken then 1 else 2) ++ bytes4 t0 ++ bytes4 tc ++ bytes2 np
  | .schedule sc outcome reason count time =>
    bytes1 sc.num ++ bytes1 outcome.code ++ opt1 SchedReason.code reason ++ bytes1 count ++ bytes4 time
  | .performanceEnd sc count => bytes1 sc.num ++ bytes2 count
  | .lights sc before after house aisle stage fade origin =>
    bytes1 sc.num ++ bytes1 (rankCode before) ++ bytes1 (rankCode after) ++ bytes1 house ++
    bytes1 aisle ++ bytes1 stage ++ bytes2 fade ++ bytes1 (originCode origin)
  | .programmeFault sc bank fromIndex atIndex reason =>
    bytes1 sc.num ++ bytes1 bank.code ++ bytes1 fromIndex ++ bytes1 atIndex ++ bytes1 reason.code

/-- The body length 10.5 gives each notice. -/
def NoticeBody.length : NoticeBody → Nat
  | .restart .. => 6
  | .noticesLost .. => 5
  | .screenState .. => 18
  | .cue .. => 13
  | .changeover .. => 22
  | .entry .. => 15
  | .lamp .. => 16
  | .trimLow .. => 23
  | .shutter .. => 8
  | .safety .. => 14
  | .mains .. => 10
  | .switch .. => 16
  | .schedule .. => 12
  | .performanceEnd .. => 7
  | .lights .. => 13
  | .programmeFault .. => 9

/-- The body of a notice: the booth time at which it was raised, then its fields (R194). -/
def Notice.bodyBytes (n : Notice) : List Byte := bytes4 n.time ++ n.body.fields

/-- A notice's frame: KIND its code, TAG 0 (R194). -/
def Notice.bytes (n : Notice) : List Byte := frameBytes n.body.code 0 n.bodyBytes

end Sys2Proof.Machine
end

