-- ==== Sys2Proof/Machine/Link.lean ====
section
/-!
DEFINITION. Chapter 9 at the CNL: the receiver, the link reset, taking frames, the transmitter, QUIET and
IDENTIFY; power-on and BOOTH RESET.
-/

namespace Sys2Proof.Machine

/-! ## Replies of the CNL itself -/

/-- R179: places of the reply queue held, a reserved place counting as held. -/
def Cnl.heldPlaces (c : Cnl) : Nat := c.replies.length + c.reserved

def Cnl.replyRoom (c : Cnl) : Bool := c.heldPlaces < Config.replySize

/-- R176, R179: a reply that the CNL forms enters the reply queue at its tail if a place is free. -/
def Cnl.own (c : Cnl) (r : Reply) : Cnl := if c.replyRoom then { c with replies := c.replies ++ [r] } else c

/-- R180: a LINK ERROR reply. -/
def linkError (tag : Byte) (result : Result) : Reply := ⟨0x8F, tag, result, none, []⟩

/-- R191: the kinds whose replies carry the adjusted flag. -/
def isSetKind (kind : Byte) : Bool :=
  kind = 0x20 || kind = 0x21 || kind = 0x22 || kind = 0x23 || kind = 0x3A || kind = 0x40

/-- R179 item 2, R191: a BAD LENGTH reply. -/
def badLength (kind tag : Byte) : Reply :=
  ⟨kind + 0x80, tag, .badLength, if isSetKind kind then some false else none, []⟩

/-! ## The receiver (R175, R176) -/

/-- R175: the partial frame is discarded and the receiver is in HUNT. -/
def Cnl.hunt (c : Cnl) : Cnl := { c with rx := .hunt, partialFrame := none, gapTimer := false }

/-- R175: a partial frame `x` is held and the gap timer runs. -/
def Cnl.holdPartial (c : Cnl) (x : PartialFrame) : Cnl :=
  { c with rx := .inFrame, partialFrame := some x, gapTimer := true }

/-- R176: the bytes from LEN through SUM add to 0 modulo 256. -/
def sumOk (len : Byte) (bytes : List Byte) : Bool := bytes.foldl (· + ·) len = 0

/-- R176: a complete frame; `bytes` are the KIND, the TAG, the body and the SUM. -/
def Cnl.complete (c : Cnl) (len : Byte) (bytes : List Byte) : Cnl :=
  let c := c.hunt
  if sumOk len bytes then
    match bytes.dropLast with
    | kind :: tag :: body =>
      if c.inbound.length < Config.inboundSize then { c with inbound := c.inbound ++ [⟨kind, tag, body⟩] }
      else c.own (linkError tag .queueFull)
    | _ => c
  else c.own (linkError 0 .checkError)

/-- R175: a byte taken with LEN held. -/
def Cnl.keepByte (c : Cnl) (len : Byte) (bytes : List Byte) : Cnl :=
  if bytes.length = len.toNat + 1 then c.complete len bytes else c.holdPartial ⟨some len, bytes⟩

/-- R175: a byte taken IN FRAME with no LEN yet. -/
def Cnl.lenByte (c : Cnl) (byte : Byte) : Cnl :=
  if 2 ≤ byte.toNat ∧ byte.toNat ≤ 58 then c.holdPartial ⟨some byte, []⟩
  else if byte = Config.mark then c.holdPartial ⟨none, []⟩
  else c.hunt

/-- R175: a received byte by the receiver's state. -/
def Cnl.receive (c : Cnl) (byte : Byte) : Cnl :=
  match c.rx with
  | .brk => c
  | .hunt => if byte = Config.mark then c.holdPartial ⟨none, []⟩ else c
  | .inFrame =>
    match c.partialFrame with
    | none => c.hunt
    | some ⟨none, _⟩ => c.lenByte byte
    | some ⟨some len, bytes⟩ => c.keepByte len (bytes ++ [byte])

/-- R174, R175: a character whose stop bit is at space gives no byte and discards a partial frame. -/
def Cnl.framingError (c : Cnl) : Cnl :=
  match c.rx with
  | .inFrame => c.hunt
  | _ => c

/-- BYTE_RECEIVED (R174, R175, R176). -/
def execByteReceived (byte : Byte) (stopAtMark : Bool) (s : State) : Outcome :=
  .next (s.modCnl fun c => if stopAtMark then c.receive byte else c.framingError)

/-- GAP_TIMER_EXPIRY (R175); a stopped timer does not run out. -/
def execGapTimerExpiry (s : State) : Outcome := .next (s.modCnl fun c => if c.gapTimer then c.hunt else c)

/-! ## BOOTH RESET (R188, R189) and power-on (R187) -/

/-- R188: the DONE reply of an accepted BOOTH RESET. -/
def Reply.isResetDone (r : Reply) : Bool := r.kind = 0x93 && r.result = .done

def boothReset (tag force : Byte) (s : State) : State :=
  if force ≠ 0 ∧ force ≠ 1 then s.answer 0x13 tag .badField
  else if force = 0 ∧ (Screen.all.any fun sc => (s.shc.get sc).state ≠ .idle) = true then s.answer 0x13 tag .busy
  else (s.modCnl fun c => { c with resetPending := true }).answer 0x13 tag .done

/-- BOOTH_RESET (R188). -/
def execBoothReset (tag force : Byte) (s : State) : Outcome :=
  .next (boothReset tag force (s.taken (.boothReset tag force)))

/-- R189: every block takes its reset values but the Booth Clock, events not yet taken are discarded, the straps are
read (R174), and the RESTART notice enters the empty notice queue. -/
def State.makeReset (s : State) : State :=
  { State.poweredOn s.pins with
    pending := s.pending
    bck := s.bck
    cnl := Cnl.reset s.pins.straps ⟨s.bck.time, .restart .boothReset (LineRate.ofStraps s.pins.straps)⟩ }

/-- R188: the reply `r` has been sent or abandoned: with the DONE reply of an accepted BOOTH RESET the reset is made. -/
def State.resetIfDone (s : State) (r : Reply) : State :=
  if s.cnl.resetPending && r.isResetDone then s.makeReset else s

/-- The straps stand at `straps` when the command is taken. -/
def State.strapped (s : State) (straps : Straps) : State := s.modPins fun x => { x with straps := straps }

/-- BOOTH_RESET_MADE (R189): `straps` is the level of the straps as read in the event. -/
def execBoothResetMade (straps : Straps) (s : State) : Outcome := .next (s.strapped straps).makeReset

/-- POWER_ON (R187): `straps` is the level of the straps as read in the event. -/
def execPowerOn (straps : Straps) (s : State) : Outcome :=
  .next { State.poweredOn (s.strapped straps).pins with pending := s.pending }

/-! ## The link reset (R177, R178) -/

/-- R178 item 3: the lost count after a notice is abandoned; NOTICES LOST gives back its count too. -/
def lostAfter (lost : Nat) (n : Notice) : Nat :=
  match n.body with
  | .noticesLost k => min 255 (lost + k + 1)
  | _ => min 255 (lost + 1)

/-- R178 item 3: the frame in transmission is abandoned. -/
def State.abandon (s : State) : State :=
  match s.cnl.tx with
  | none => s
  | some x =>
    let s := s.modCnl fun c => { c with tx := none }
    if x.isReply then
      match s.cnl.replies with
      | [] => s
      | r :: rest => (s.modCnl fun c => { c with replies := rest }).resetIfDone r
    else
      match s.cnl.notices with
      | [] => s
      | n :: rest =>
        s.modCnl fun c => Cnl.placeFreed { c with notices := rest, lost := lostAfter c.lost n } s.bck.time

/-- R178: a link reset, items 1 to 4 in their order. -/
def State.linkReset (s : State) : State :=
  (((s.modCnl fun c => { c.hunt with inbound := [] }).abandon).modCnl fun c => { c with rx := .brk })

/-- The receive line stands at mark or at space. -/
def State.lineAt (s : State) (mark : Bool) : State := s.modPins fun x => { x with lineMark := mark }

def lineBreak (s : State) : State := if s.cnl.rx = .brk then s else s.linkReset

/-- LINE_BREAK (R177): further time at space does nothing more. -/
def execLineBreak (s : State) : Outcome := .next (lineBreak (s.lineAt false))

/-- LINE_RETURNS_TO_MARK (R177). -/
def execLineReturnsToMark (s : State) : Outcome :=
  .next ((s.lineAt true).modCnl fun c => if c.rx = .brk then { c with rx := .hunt } else c)

/-! ## Taking frames (R179) -/

/-- R179: what is done with the frame `f` that has been taken. -/
def State.decide (s : State) (f : Frame) : State :=
  match decodeRequest f.kind f.tag f.body with
  | .unknownKind => s.modCnl (·.own (linkError f.tag .unknownKind))
  | .badLength => s.modCnl (·.own (badLength f.kind f.tag))
  | .request i => (s.modCnl fun c => { c with reserved := c.reserved + 1 }).emit i

def takeFrame (s : State) : State :=
  match s.cnl.inbound with
  | [] => s
  | f :: rest =>
    if s.cnl.replyRoom = true ∧ s.cnl.resetPending = false then
      (s.modCnl fun c => { c with inbound := rest }).decide f
    else s

/-- TAKE_FRAME (R179). -/
def execTakeFrame (s : State) : Outcome := .next (takeFrame s)

/-! ## The transmitter (R181, R182) -/

/-- R187: the RESTART notice of power-on. -/
def Notice.isPowerRestart (n : Notice) : Bool :=
  match n.body with
  | .restart .power _ => true
  | _ => false

/-- R187: the oldest notice may be sent: the RESTART notice of power-on once the receive line is at mark. -/
def Cnl.noticeReady (c : Cnl) (lineMark : Bool) : Bool :=
  match c.notices with
  | [] => false
  | n :: _ => lineMark || !n.isPowerRestart

/-- R181: the frame a free transmitter starts with the receive line at `lineMark`. -/
def Cnl.nextFrame (c : Cnl) (lineMark : Bool) : Option Transmission :=
  if c.rx = .brk then none
  else if c.replies ≠ [] then some ⟨true, 0⟩
  else if c.quiet = false ∧ c.noticeReady lineMark = true then some ⟨false, 0⟩
  else none

/-- FRAME_START (R181). -/
def execFrameStart (s : State) : Outcome :=
  .next (s.modCnl fun c => if c.tx.isSome then c else { c with tx := c.nextFrame s.pins.lineMark })

/-- The bytes of the frame in transmission (R181). -/
def Cnl.frame (c : Cnl) (x : Transmission) : List Byte :=
  if x.isReply then (c.replies.head?.map Reply.bytes).getD [] else (c.notices.head?.map Notice.bytes).getD []

/-- R173, R181: one more byte of the frame in transmission has been sent; its SUM byte is FRAME_SENT's. -/
def Cnl.byteSent (c : Cnl) : Cnl :=
  match c.tx with
  | none => c
  | some x => { c with tx := some { x with sent := min ((c.frame x).length - 1) (x.sent + 1) } }

/-! ## The serial line (R174)

A level of the line is `true` at mark and `false` at space. The state holds the count of whole bytes sent (R173) and no
place within a character, so the level of the output is a function of the bit time (log entry 36). -/

/-- R174: the ten bit times of a character: one start bit at space, the 8 data bits least significant first, no parity
bit, and one stop bit at mark. -/
def character (b : Byte) : List Bool := false :: ((List.range 8).map b.getLsbD ++ [true])

/-- R174: what ten bit times of the receive line give, a start bit at their head: the byte and the level of the stop
bit, which are the operands of BYTE_RECEIVED. -/
def readCharacter : List Bool → Option (Byte × Bool)
  | [false, b0, b1, b2, b3, b4, b5, b6, b7, stop] =>
    some (BitVec.ofNat 8 ([b0, b1, b2, b3, b4, b5, b6, b7].foldr (fun b n => 2 * n + b.toNat) 0), stop)
  | _ => none

/-- R174, R181: the character on the serial output, that of the first byte not yet sent; none between frames. -/
def Cnl.outputCharacter (c : Cnl) : List Bool :=
  match c.tx with
  | none => []
  | some x => (((c.frame x)[x.sent]?).map character).getD []

/-- R174: the level of the serial output in bit time `bit` of the character on it, and mark between frames. -/
def Cnl.outputLevel (c : Cnl) (bit : Nat) : Bool := c.outputCharacter.getD bit true

/-! ## The end of a frame -/

/-- R181, R182: the frame in transmission leaves its queue. -/
def frameSent (s : State) : State :=
  match s.cnl.tx with
  | none => s
  | some x =>
    let s := s.modCnl fun c => { c with tx := none }
    if x.isReply then
      match s.cnl.replies with
      | [] => s
      | r :: rest => (s.modCnl fun c => { c with replies := rest }).resetIfDone r
    else s.modCnl fun c => Cnl.placeFreed { c with notices := c.notices.tail } s.bck.time

/-- FRAME_SENT (R181, R182, R188). -/
def execFrameSent (s : State) : Outcome := .next (frameSent s)

/-! ## QUIET and IDENTIFY (R183, R184) -/

def quiet (tag setting : Byte) (s : State) : State :=
  if setting ≠ 0 ∧ setting ≠ 1 then s.answer 0x14 tag .badField
  else if s.cnl.quiet = decide (setting = 1) then s.answer 0x14 tag .already
  else (s.modCnl fun c => { c with quiet := decide (setting = 1) }).answer 0x14 tag .done

/-- QUIET (R183). -/
def execQuiet (tag setting : Byte) (s : State) : Outcome := .next (quiet tag setting (s.taken (.quiet tag setting)))

def identify (tag : Byte) (s : State) : State :=
  s.reply 0x10 tag .done none
    ([Config.vendor, Config.part, Config.revision] ++ bytes1 s.cnl.rate.code ++ flag s.bck.isSet)

/-- IDENTIFY (R184). -/
def execIdentify (tag : Byte) (s : State) : Outcome := .next (identify tag (s.taken (.identify tag)))

end Sys2Proof.Machine
end

