-- ==== Sys2Proof/Machine/Performances.lean ====
section
/-!
DEFINITION. The screen state machine (chapter 2, and the runout of section 3.7): SCREEN STATE notices, halts and
further reasons, bringing a reel up, the picture on, reel ends, intervals and the performance end; then the
transport, lamp and safety events an SHC takes.
-/

namespace Sys2Proof.Machine

/-! ## SCREEN STATE notices (R50, R195) -/

/-- R50: the SCREEN STATE notice after a change from state `old`. The PREPARING kind is meaningful on PICTURE ON
and in PREPARING (10.7); the halt fields are those of the halt record, which is present in HALTED alone. -/
def State.noteScreen (s : State) (sc : Screen) (old : ScreenState) (cause : ScreenCause)
    (added : Option HaltReason) : State :=
  let c := s.shc.get sc
  s.note (.screenState sc c.state old cause c.current (c.titleAt c.current) (s.countAt sc c.current)
    (if cause = .pictureOn ∨ c.state = .preparing then some c.prep else none)
    (c.halt.map (·.first)) (c.halt.bind (·.reasonProj)) (c.halt.map (·.point)) added)

/-! ## The runout of a lamp (R71) -/

/-- R71: the lamp of projector `p` is extinguished, unless an entry of that projector is ARMED. -/
def State.runoutLamp (s : State) (p : Proj) : State :=
  if ((s.shc.get p.screen).holdingOn .armed p.side).isSome then s else s.shcExtinguish p

/-! ## Halts (R41 to R44) -/

/-- R43: the resume point that the state halted from sets. -/
def Shc.resumePoint (c : Shc) : ResumePoint :=
  match c.state, c.prep with
  | .showing, _ => .picture
  | .preparing, .resume => .picture
  | .preparing, _ => .reel
  | _, _ => .after

/-- R42 item 2, R49 item 2: both motors of the screen are commanded off, side A first (log entry 33). -/
def State.motorsOff (s : State) (sc : Screen) : State :=
  (s.motorOff (sc.proj .a)).motorOff (sc.proj .b)

/-- R42 item 3: an ARMED entry whose motor command was on returns to LOADED; `before` is the SHC at the halt. The
motor command is the SHC's own last one, not the TRM's record (log entry 7). -/
def State.haltArmed (s : State) (sc : Screen) (before : Shc) : State :=
  match before.holding .armed with
  | none => s
  | some (i, r) =>
    if before.motor r.side then
      (s.modShc sc (·.enter i .loaded)).noteEntry sc before.active i r .filmMoved false none
    else s

def Shc.mapActive (c : Shc) (f : Entry → Entry) : Shc := c.setBank c.active ((c.bank c.active).map f)

/-- R42 item 4: a RUNNING_OUT entry becomes DONE. -/
def Entry.endTail (e : Entry) : Entry := if e.state = .runningOut then e.become .done else e

/-- R42 item 4: the lamp of a side of the screen is treated as at a runout, where that side held a tail. -/
def State.tailLamp (s : State) (sc : Screen) (before : Shc) (side : Side) : State :=
  if (before.holdingOn .runningOut side).isSome then s.runoutLamp (sc.proj side) else s

/-- R42 item 4: every RUNNING_OUT entry of the active bank becomes DONE and its lamp is treated as at a runout, side A
before side B (log entry 12). -/
def State.haltTails (s : State) (sc : Screen) : State :=
  let c := s.shc.get sc
  ((s.modShc sc (·.mapActive Entry.endTail)).tailLamp sc c .a).tailLamp sc c .b

/-- R42 item 5: an ACTIVE interval entry becomes DONE. -/
def Entry.endActive (e : Entry) : Entry := if e.state = .active then e.become .done else e

/-- R42: a halt with reason `reason` of projector `rp`. -/
def State.haltScreen (s : State) (sc : Screen) (reason : HaltReason) (rp : Option Proj) : State :=
  let c := s.shc.get sc
  let s := (s.modShc sc Shc.blackout).motorsOff sc
  let s := (s.haltArmed sc c).haltTails sc
  let s := s.modShc sc fun x => { x.mapActive Entry.endActive with countdown := 0 }
  let record : HaltRecord := ⟨reason, rp, c.resumePoint, c.current, s.countAt sc c.current, s.bck.time, []⟩
  let s := s.modShc sc fun x => { x with halt := some record, state := .halted, strikeFrame := none }
  (s.postHalt sc c.setup.brk).noteScreen sc c.state .halt none

/-- R44: a reason joins the further-reasons set, which it does not hold yet. R162's further event of a latch that has
halted the screen is no exception: its reason joins unless the set holds it, though it equal the first (log entry 30). -/
def State.addFurther (s : State) (sc : Screen) (reason : HaltReason) : State :=
  match (s.shc.get sc).halt with
  | none => s
  | some h =>
    if reason ∈ h.further then s
    else
      (s.modShc sc fun c => { c with halt := some { h with further := h.further ++ [reason] } }).noteScreen sc
        .halted .furtherReason (some reason)

/-- R41, R44: a fault that is a halt fault when `outside` holds and a further reason when `inside` holds. -/
def State.fault (s : State) (sc : Screen) (reason : HaltReason) (rp : Option Proj) (outside inside : Bool) :
    State :=
  match (s.shc.get sc).state with
  | .idle => s
  | .halted => if inside then s.addFurther sc reason else s
  | _ => if outside then s.haltScreen sc reason rp else s

/-- R41: the side of the picture projector. -/
def Shc.pictureSide (c : Shc) : Option Side :=
  match c.state, c.prep with
  | .showing, _ => (c.holding .onScreen).map (·.2.side)
  | .preparing, .resume => (c.holding .onScreen).map (·.2.side)
  | .preparing, _ => match (c.entry c.current).kind with | .reel r => some r.side | _ => none
  | _, _ => none

/-- R44: `p` is the projector of a PICTURE resume point. -/
def Shc.heldSide (c : Shc) : Option Side :=
  match c.halt with
  | some h => if h.point = .picture then (c.holding .onScreen).map (·.2.side) else none
  | none => none

/-! ## Bringing a reel up (R30, R31) -/

/-- R31: the lamp step for projector `p`. -/
def State.lampStep (s : State) (p : Proj) : State :=
  match (s.alc.get p).state with
  | .stable => s.motorOn p
  | .striking => s
  | .warming => s
  | _ =>
    match s.askStrike p with
    | (.accepted, s') => s'
    | (_, s') => s'.haltScreen p.screen .lamp (some p)

/-- R30 item 4: the consecutive-miss count is cleared. -/
def Schedule.clearMisses (x : Schedule) : Schedule := { x with miss := 0 }

/-- R30: the reel of entry `i` is brought up in PREPARING kind `kind`, armed first where it is not ARMED and the
kind is not RESUME. -/
def State.bringUp (s : State) (sc : Screen) (kind : PrepKind) (i : Nat) (r : Reel) (short : Bool)
    (cause : ScreenCause) : State :=
  let old := (s.shc.get sc).state
  let s := if kind = .resume ∨ ((s.shc.get sc).entry i).state = .armed then s else s.arm sc i r short
  let s := (s.modShc sc fun c => { c with current := i, prep := kind, state := .preparing }).noteScreen sc old
    cause none
  let s := s.modShc sc fun c => { c.blackout with schedule := c.schedule.map Schedule.clearMisses }
  let s := if kind = .start then s.postShow sc (s.shc.get sc).setup.preShow else s
  let s := if old = .gap then s.emit (.haltRelease sc) else s
  s.lampStep (sc.proj r.side)

/-! ## The picture on (R32) -/

/-- R32 item 1: the halt reason of a set veto; a veto of cause POWER has its shutter down, which is tested
first (R160). -/
def vetoReason : VetoCause → HaltReason
  | .power => .shutter | .filmBreak => .filmBreak | .stall => .stall | .fire => .fire | .estop => .estop

/-- R43: the reason projector, none for FIRE and ESTOP. -/
def reasonProj (reason : HaltReason) (p : Proj) : Option Proj :=
  match reason with
  | .fire => none
  | .estop => none
  | _ => some p

/-- R32 items 2 and 4: the picture of a side goes on. -/
def Shc.pictureOn (c : Shc) (side : Side) : Shc :=
  { c.setDouser side true with sound := side, muted := false, state := .showing }

/-- R60: at a picture on of kind RESUME with an ARMED incoming, the strike point or the late arming action. The motor
command is the SHC's own last one (log entry 7). -/
def State.resumeIncoming (s : State) (sc : Screen) : State :=
  let c := s.shc.get sc
  match c.holding .armed, s.outgoing sc with
  | some (i, r), some (fc, n) =>
    match c.progress with
    | .none => s.placeStrike sc r fc n
    | .motorFired => if c.motor r.side then s else s.startIncoming sc i r
    | .changeoverFired => s
  | _, _ => s

/-- R32 items 2 to 6 for the reel `r` of entry `i`, then its SCREEN STATE notice and the arming evaluation. -/
def State.showPicture (s : State) (sc : Screen) (i : Nat) (r : Reel) : State :=
  let kind := (s.shc.get sc).prep
  let s := s.modShc sc (·.pictureOn r.side)
  let s :=
    if kind = .resume then (s.reopenWindows sc).resumeIncoming sc
    else
      let s := s.modShc sc fun c => { c.enter i .onScreen with progress := .none }
      let s := s.serve sc i r
      (s.lightStep sc r (s.trm.get (sc.proj r.side)).count).reopenWindows sc
  (s.noteScreen sc .preparing .pictureOn none).evaluate sc

/-- R32: the picture is put on, or the screen halts by its shutter or its veto. -/
def State.putPictureOn (s : State) (sc : Screen) (i : Nat) (r : Reel) : State :=
  let p := sc.proj r.side
  if s.shutterRaised p = false then s.haltScreen sc .shutter (some p)
  else
    match s.bsu.vetoes.get p with
    | some v => s.haltScreen sc (vetoReason v) (reasonProj (vetoReason v) p)
    | none => s.showPicture sc i r

/-- The reel of the entry in PREPARING (R26: the current index). -/
def Shc.preparing (c : Shc) : Option (Nat × Reel) :=
  match c.state, (c.entry c.current).kind with
  | .preparing, .reel r => some (c.current, r)
  | _, _ => none

/-- R32: the picture-on condition at an at-speed event of projector `p`. -/
def atSpeedSeen (p : Proj) (s : State) : State :=
  let sc := p.screen
  let c := s.shc.get sc
  match c.preparing with
  | some (i, r) =>
    if r.side = p.side ∧ s.atSpeed p = true ∧ (c.prep = .resume ∨ c.setup.l0 ≤ (s.trm.get p).count) then
      s.putPictureOn sc i r
    else s
  | none => s

/-- AT_SPEED_EVENT (R32). -/
def execAtSpeedEvent (p : Proj) (count : Nat) (s : State) : Outcome :=
  .next (atSpeedSeen p (s.taken (.atSpeedEvent p count)))

/-- R77: what the SHC does at an advance of the count of projector `p`: the L0 test of a picture on (R32), the
lighting points (R34) and the strike frame (R59). -/
def countAdvanced (p : Proj) (s : State) : State :=
  let sc := p.screen
  let c := s.shc.get sc
  let n := (s.trm.get p).count
  match c.preparing with
  | some (i, r) =>
    if r.side = p.side ∧ c.prep ≠ .resume ∧ s.atSpeed p = true ∧ c.setup.l0 ≤ n then s.putPictureOn sc i r
    else
      match c.holdingOn .onScreen p.side with
      | some (_, q) => s.lightReached sc q n
      | none => s
  | none =>
    match c.holdingOn .onScreen p.side with
    | some (_, r) =>
      let s := s.lightReached sc r n
      match c.strikeFrame with
      | some x => if x ≤ n then s.makeStrike sc else s
      | none => s
    | none => s

/-! ## The performance end (R37) -/

/-- R37 item 2, R49 item 4: a DONE INTERVAL entry returns to LOADED. -/
def Entry.rewindInterval (e : Entry) : Entry :=
  match e.kind with
  | .interval _ _ => if e.state = .done then e.become .loaded else e
  | _ => e

/-- R52: the changeover record at an entry to IDLE. -/
def Shc.idle (c : Shc) : Shc :=
  { c with state := .idle, progress := .none, strikeFrame := none, trimHold := none }

/-- R37: the performance ends. -/
def State.endPerformance (s : State) (sc : Screen) : State :=
  let old := (s.shc.get sc).state
  let s := s.modShc sc fun c => ({ c with perfCount := satSucc 65535 c.perfCount }.mapActive Entry.rewindInterval).idle
  let s := s.noteScreen sc old .performanceEnd none
  (s.note (.performanceEnd sc (s.shc.get sc).perfCount)).testSwitch sc s.bck.time

/-! ## Reel ends and intervals (R36 to R40) -/

/-- R39: the pre-strike test of an interval. -/
def State.intervalPreStrike (s : State) (sc : Screen) : State :=
  let c := s.shc.get sc
  if c.state = .interval ∧ c.preStrike = false ∧ 0 < c.countdown then
    let s := s.noteFault sc (c.current + 1) (c.next c.current)
    match c.next c.current with
    | .reel i r =>
      let p := sc.proj r.side
      let a := s.alc.get p
      if ((c.entry i).state = .confirmed ∨ (c.entry i).state = .armed) ∧ a.state = .dark ∧
          c.countdown ≤ a.setup.lead then
        (s.askStrike p).2.modShc sc fun c => { c with preStrike := true }
      else s
    | _ => s
  else s

/-- R36: the INTERVAL of entry `i` is entered. -/
def State.enterInterval (s : State) (sc : Screen) (i duration preset : Nat) (cause : ScreenCause) : State :=
  let old := (s.shc.get sc).state
  let s := s.modShc sc fun c =>
    { c.enter i .active with current := i, state := .interval, preStrike := false, countdown := duration }
  let s := (s.postShow sc preset).evaluate sc
  (s.noteScreen sc old cause none).intervalPreStrike sc

/-- R37: ENDING is entered. -/
def State.enterEnding (s : State) (sc : Screen) (cause : ScreenCause) : State :=
  let c := s.shc.get sc
  ((s.postShow sc c.setup.fin).modShc sc fun c => { c with state := .ending }).noteScreen sc c.state cause none

/-- R38: an ARMED next reel whose motor command is on is stopped and returns to LOADED. The motor command is the
SHC's own last one, not the TRM's record (log entry 7). -/
def State.gapArmed (s : State) (sc : Screen) : State :=
  let c := s.shc.get sc
  match c.holding .armed with
  | none => s
  | some (i, r) =>
    if c.motor r.side then
      ((s.motorOff (sc.proj r.side)).modShc sc fun c => { c.enter i .loaded with strikeFrame := none }).noteEntry sc
        c.active i r .filmMoved false none
    else s

/-- R38: GAP is entered. -/
def State.enterGap (s : State) (sc : Screen) (cause : ScreenCause) : State :=
  let c := s.shc.get sc
  let s := (s.modShc sc fun c => { c with state := .gap }).postHalt sc c.setup.brk
  ((s.gapArmed sc).evaluate sc).noteScreen sc c.state cause none

/-- R35 item 3: the screen goes on by the next entry after the current index. -/
def State.afterPicture (s : State) (sc : Screen) : State :=
  let c := s.shc.get sc
  let s := s.noteFault sc (c.current + 1) (c.next c.current)
  match c.next c.current with
  | .interval i d q => s.enterInterval sc i d q .pictureEnd
  | .finish => s.enterEnding sc .pictureEnd
  | .reel _ _ => s.enterGap sc .pictureEnd
  | .fault _ _ => s.enterGap sc .pictureEnd

/-- R35: the picture end of the ON_SCREEN entry `i` in SHOWING or PREPARING kind RESUME. -/
def State.endPicture (s : State) (sc : Screen) (i : Nat) (r : Reel) : State :=
  let s := s.modShc sc fun c => { (c.setDouser r.side false).enter i .runningOut with muted := true }
  ((s.unserve (sc.proj r.side)).emit (.cueWindowClose (sc.proj r.side))).afterPicture sc

/-- R44: the picture end of the ON_SCREEN entry `i` of a PICTURE resume point in HALTED. The change to DONE raises no
ENTRY notice, R44 naming none (log entry 12). -/
def State.endHeld (s : State) (sc : Screen) (i : Nat) (r : Reel) : State :=
  let s := s.modShc sc fun c =>
    { c.enter i .done with halt := c.halt.map fun h => { h with point := .after } }
  (s.unserve (sc.proj r.side)).runoutLamp (sc.proj r.side)

/-- R35, R44: picture end reached on projector `p`. -/
def pictureEnded (p : Proj) (s : State) : State :=
  let sc := p.screen
  let c := s.shc.get sc
  match c.holdingOn .onScreen p.side with
  | none => s
  | some (i, r) =>
    match c.state, c.prep with
    | .showing, _ => s.endPicture sc i r
    | .preparing, .resume => s.endPicture sc i r
    | .halted, _ => s.endHeld sc i r
    | _, _ => s

/-- PICTURE_END_REACHED (R35). -/
def execPictureEndReached (p : Proj) (count : Nat) (s : State) : Outcome :=
  .next (pictureEnded p (s.taken (.pictureEndReached p count)))

/-- R54 for a reel brought up from cold: an ARMED entry needs no test. -/
def State.judgeStart (s : State) (sc : Screen) (i : Nat) (r : Reel) : Verdict × State :=
  let e := (s.shc.get sc).entry i
  if e.state = .armed then (.armable e.short, s) else s.judge sc i r .coldStart

/-- R40: the interval at the current index ends. -/
def State.endInterval (s : State) (sc : Screen) : State :=
  let c := s.shc.get sc
  let s := s.modShc sc fun c => { c.enter c.current .done with preStrike := false, countdown := 0 }
  let s := s.noteFault sc (c.current + 1) (c.next c.current)
  match c.next c.current with
  | .reel i r =>
    match s.judgeStart sc i r with
    | (.armable short, s) => s.bringUp sc .cont i r short .intervalEnd
    | (.fails _, s) => s.enterGap sc .intervalEnd
  | .interval i d q => s.enterInterval sc i d q .intervalEnd
  | .fault _ _ => s.enterGap sc .intervalEnd
  | .finish =>
    if (c.holding .runningOut).isSome then s.enterEnding sc .intervalEnd
    else (s.postShow sc c.setup.fin).endPerformance sc

/-- R39: the interval work of a booth second. -/
def State.intervalSecond (s : State) (sc : Screen) : State :=
  let c := s.shc.get sc
  if c.state = .interval ∧ 0 < c.countdown then
    let s := s.modShc sc fun c => { c with countdown := c.countdown - 1 }
    if c.countdown = 1 then s.endInterval sc else s.intervalPreStrike sc
  else s

/-! ## The runout (R70) -/

/-- R37, R40: the runout of entry `i` ends a performance in ENDING: it is the reel whose picture ended; where ENDING
came from an interval, it was the last tail (log entry 12). -/
def Shc.endsEnding (c : Shc) (i : Nat) : Bool :=
  match (c.entry c.current).kind with
  | .reel _ => c.current = i
  | _ => (c.holding .runningOut).isNone

/-- R70: runout reached on projector `p`, which holds the RUNNING_OUT entry `i`. -/
def State.runOut (s : State) (p : Proj) (i : Nat) (r : Reel) : State :=
  let sc := p.screen
  let s := ((s.motorOff p).modShc sc (·.enter i .done)).noteEntry sc (s.shc.get sc).active i r .done false none
  let s := s.runoutLamp p
  match (s.shc.get sc).state with
  | .ending => if (s.shc.get sc).endsEnding i then s.endPerformance sc else s
  | .showing => s.evaluate sc
  | .interval => s.evaluate sc
  | .gap => s.evaluate sc
  | _ => s

def runoutSeen (p : Proj) (s : State) : State :=
  match (s.shc.get p.screen).holdingOn .runningOut p.side with
  | some (i, r) => s.runOut p i r
  | none => s

/-- RUNOUT_REACHED (R70). -/
def execRunoutReached (p : Proj) (count : Nat) (s : State) : Outcome :=
  .next (runoutSeen p (s.taken (.runoutReached p count)))

/-! ## Faults that reach the SHC (R41, R44) -/

/-- RUN_UP_FAIL (R41). -/
def execRunUpFail (p : Proj) (count : Nat) (s : State) : Outcome :=
  .next ((s.taken (.runUpFail p count)).fault p.screen .runUpFail (some p) true true)

def breakReason : BreakKind → HaltReason
  | .filmBreak => .filmBreak | .stall => .stall

/-- BREAK_OR_STALL_EVENT (R41): a halt fault when the SHC's last motor command to the projector was on. -/
def execBreakOrStallEvent (p : Proj) (kind : BreakKind) (count : Nat) (s : State) : Outcome :=
  let s := s.taken (.breakOrStallEvent p kind count)
  .next (s.fault p.screen (breakReason kind) (some p) ((s.shc.get p.screen).motor p.side) true)

/-- R41: the drop reasons whose event is a fault of the screen. -/
def dropIsFault : DropReason → Bool
  | .console | .fault | .link => true
  | _ => false

/-- SHUTTER_DROPPED (R41, R44). The motor command of this row is the projector's own, which its TRM holds (R77); the
SHC's last motor command is the condition of the rows of the film break and the stall. -/
def execShutterDropped (p : Proj) (reason : DropReason) (s : State) : Outcome :=
  let s := s.taken (.shutterDropped p reason)
  let c := s.shc.get p.screen
  .next (s.fault p.screen .shutter (some p)
    (dropIsFault reason && ((s.trm.get p).motor || c.pictureSide = some p.side))
    (dropIsFault reason && c.heldSide = some p.side))

/-- FIRE_EVENT (R41, R44). -/
def execFireEvent (sc : Screen) (s : State) : Outcome :=
  .next ((s.taken (.fireEvent sc)).fault sc .fire none true true)

/-- EMERGENCY_STOP_EVENT (R41, R44). -/
def execEmergencyStopEvent (sc : Screen) (s : State) : Outcome :=
  .next ((s.taken (.emergencyStopEvent sc)).fault sc .estop none true true)

/-- R41: the fault that a lamp state change is, where it is one. -/
def lampFault (new : LampState) (cause : LampCause) : Option HaltReason :=
  if cause = .trimOut then some .trimOut
  else if cause = .arcLost ∨ new = .dark ∨ new = .failed then some .lamp
  else none

/-- R31, R32, R41, R44, R56: a lamp state change of lamp `p`. -/
def lampChanged (p : Proj) (new : LampState) (cause : LampCause) (s : State) : State :=
  let sc := p.screen
  let c := s.shc.get sc
  match c.state with
  | .halted =>
    match lampFault new cause with
    | some reason => if c.heldSide = some p.side then s.addFurther sc reason else s
    | none => s
  | .preparing =>
    if c.pictureSide = some p.side then
      match lampFault new cause with
      | some reason => s.haltScreen sc reason (some p)
      | none => if new = .stable then s.motorOn p else s
    else s
  | .showing =>
    match lampFault new cause with
    | some reason => if c.pictureSide = some p.side then s.haltScreen sc reason (some p) else s.evaluate sc
    | none => s.evaluate sc
  | .interval => s.evaluate sc
  | .gap => s.evaluate sc
  | .idle => s
  | .ending => s

/-- LAMP_STATE_CHANGE (R31, R32, R41, R44, R56). -/
def execLampStateChange (p : Proj) (new old : LampState) (cause : LampCause) (s : State) : Outcome :=
  .next (lampChanged p new cause (s.taken (.lampStateChange p new old cause)))

end Sys2Proof.Machine
end

