-- ==== Sys2Proof/Machine/Transports.lean ====
section
/-!
DEFINITION. Chapter 4 at the TRM: motor command, frame counting and speed, run-up failure and stall, the loop
switch, picture end and the runout stop, cue windows and stray cues.
-/

namespace Sys2Proof.Machine

/-! ## Motor command (R78, R79) -/

/-- R79: a motor stop; a transport already STOPPED is not changed. -/
def Trm.stop (t : Trm) : Trm :=
  if t.state = .stopped then t
  else
    { t with motor := false, state := .stopped, runUpTimer := false, stallTimer := false, goodRun := 0,
             window := none }

def State.stopMotor (s : State) (p : Proj) : State := s.modTrm p Trm.stop

/-- MOTOR_STOP (R79). -/
def execMotorStop (p : Proj) (s : State) : Outcome := .next ((s.taken (.motorStop p)).stopMotor p)

/-- R78: a motor-on command taken in STOPPED. -/
def Trm.startMotor (t : Trm) : Trm :=
  { t with motor := true, state := .runUp, goodRun := 0, lastPeriod := none, lastPulse := none, runUpTimer := true,
           stallTimer := false }

/-- R78: the motor-on command is taken. -/
def State.takeMotorOn (s : State) (p : Proj) : State :=
  let t := s.trm.get p
  if t.state = .stopped then
    let s := s.modTrm p Trm.startMotor
    if t.loopClosed = some true then s else s.emit (.filmBreak p t.count)
  else s

/-- R162: a motor-on command under the motor hold is not taken: the motor command stays off, and the refused
start goes to the BSU. The SHC's motor command follows the TRM's (log entry 7). -/
def State.refuseMotorOn (s : State) (p : Proj) : State :=
  (s.modShc p.screen (·.setMotor p.side (s.trm.get p).motor)).emit (.refusedStart p)

def motorOnCommand (p : Proj) (s : State) : State := if s.motorHold then s.refuseMotorOn p else s.takeMotorOn p

/-- MOTOR_ON_COMMAND (R78, R162). -/
def execMotorOnCommand (p : Proj) (s : State) : Outcome := .next (motorOnCommand p (s.taken (.motorOnCommand p)))

/-! ## Cue windows (R88, R91) -/

def CueWindow.last (w : CueWindow) : Nat := lastFrame w.mode w.w w.centre

/-- R91: the open window `w` fires: it is closed, cue fired goes to the SHC, and the CUE notice is raised. -/
def State.fireWindow (s : State) (p : Proj) (w : CueWindow) (how : FiredAs) : State :=
  let n := (s.trm.get p).count
  ((s.modTrm p fun t => { t with window := none }).emit (.cueFiredEvent p w.cue how n)).noteCue p w.cue how w.centre
    n

/-- R88: the TRM opens the window `w`, which fires at once as counted if its last frame has been reached. -/
def State.openWindow (s : State) (p : Proj) (w : CueWindow) : State :=
  let s := s.modTrm p fun t => { t with window := some w }
  if w.last ≤ (s.trm.get p).count then s.fireWindow p w .counted else s

/-- R88: the window the screen's setup makes of a request. -/
def State.windowFor (s : State) (p : Proj) (cue : Cue) (centre : Nat) : CueWindow :=
  let x := (s.shc.get p.screen).setup
  ⟨cue, centre, x.w, x.cueMode⟩

/-- CUE_WINDOW_OPEN (R88). -/
def execCueWindowOpen (p : Proj) (cue : Cue) (centre : Nat) (s : State) : Outcome :=
  let s := s.taken (.cueWindowOpen p cue centre)
  .next (s.openWindow p (s.windowFor p cue centre))

/-- CUE_WINDOW_CLOSE (R88). -/
def execCueWindowClose (p : Proj) (s : State) : Outcome :=
  .next ((s.taken (.cueWindowClose p)).modTrm p fun t => { t with window := none })

/-! ## The tach pulse (R80, R81, R86, R87) -/

/-- R87: the stop limit, none while the run length is absent. -/
def State.stopLimit (s : State) (p : Proj) : Option Nat :=
  (s.trm.get p).runLength.map fun l => min 65535 (l + (s.shc.get p.screen).setup.allowance)

/-- R80 step 1: the count is below the stop limit. Without a stop limit the count ends at 65,535 (R77). -/
def State.countRises (s : State) (p : Proj) : Bool :=
  (s.trm.get p).count < (s.stopLimit p).getD 65535

/-- R81: a period in tolerance at frame rate f. -/
def inTolerance (period f : Nat) : Bool := Config.periodLow ≤ period * f && period * f ≤ Config.periodHigh

/-- R81: the good-period run after a period. -/
def Trm.runAfter (t : Trm) (period f : Nat) : Nat := if inTolerance period f then t.goodRun + 1 else 0

/-- R81: the speed measurement at a pulse taken at `time`. -/
def State.measure (s : State) (p : Proj) (time : Nat) : State :=
  let t := s.trm.get p
  match t.lastPulse with
  | none => s.modTrm p fun t => { t with lastPulse := some time }
  | some u =>
    let s := s.modTrm p fun t => { t with lastPulse := some time, lastPeriod := some (min 65535 (time - u)) }
    let run := t.runAfter (time - u) (s.shc.get p.screen).setup.f
    if t.state = .runUp then
      if run < Config.goodPeriods then s.modTrm p fun t => { t with goodRun := run }
      else
        (s.modTrm p fun t =>
          { t with goodRun := Config.goodPeriods, state := .atSpeed, runUpTimer := false, stallTimer := true }).emit
          (.atSpeedEvent p t.count)
    else s

/-- R80 step 3: AT_SPEED, the stall timer is restarted. -/
def Trm.restartStall (t : Trm) : Trm := if t.state = .atSpeed then { t with stallTimer := true } else t

/-- R80 step 4: the open window at a count just reached. -/
def State.windowPulse (s : State) (p : Proj) : State :=
  match (s.trm.get p).window with
  | some w => if (s.trm.get p).count = w.last then s.fireWindow p w .counted else s
  | none => s

/-- R80 step 5, R86: picture end reached, with which an open window is closed. -/
def State.endPulse (s : State) (p : Proj) : State :=
  let t := s.trm.get p
  if t.runLength = some t.count then
    (s.modTrm p fun t => { t with window := none }).emit (.pictureEndReached p t.count)
  else s

/-- R80 step 6, R87: the overrun stop. -/
def State.limitPulse (s : State) (p : Proj) : State :=
  match s.stopLimit p with
  | some l =>
    let n := (s.trm.get p).count
    if l ≤ n then (s.stopMotor p).emit (.runoutReached p n) else s
  | none => s

/-- R80: a tach pulse taken while the motor command is on. The SHC sees the advance of the count with the
transport state then held. -/
def State.countPulse (s : State) (p : Proj) (time : Nat) : State :=
  let rises := s.countRises p
  let s := if rises then countAdvanced p (s.modTrm p fun t => { t with count := t.count + 1 }) else s
  let s := (s.measure p time).modTrm p Trm.restartStall
  let s := if rises then (s.windowPulse p).endPulse p else s
  s.limitPulse p

def tachPulse (p : Proj) (time : Nat) (s : State) : State :=
  if (s.trm.get p).motor then s.countPulse p time else s

/-- TACH_PULSE (R80): `time` is the µs at which the pulse is taken. -/
def execTachPulse (p : Proj) (time : Nat) (s : State) : Outcome := .next (tachPulse p time s)

/-! ## Mark edges (R90, R92) -/

/-- R92: a stray mark edge is counted. -/
def Trm.strayEdge (t : Trm) : Trm :=
  if t.motor then
    { t with stray := satSucc 255 t.stray, strayOverflow := t.strayOverflow || t.stray = 255 }
  else t

/-- R90: a mark edge at count `n` fires the window. -/
def CueWindow.sensedAt (w : CueWindow) (n : Nat) : Bool :=
  w.mode = .sensed && w.centre ≤ n + w.w && n < w.centre + w.w

def markEdge (p : Proj) (s : State) : State :=
  let s := s.modTrm p fun t => { t with cueMark := some true }
  match (s.trm.get p).window with
  | some w =>
    if w.sensedAt (s.trm.get p).count then s.fireWindow p w .sensed else s.modTrm p Trm.strayEdge
  | none => s.modTrm p Trm.strayEdge

/-- MARK_EDGE (R90, R92). -/
def execMarkEdge (p : Proj) (s : State) : Outcome := .next (markEdge p (s.cleanChange (.cueSensor p) true))

/-- R75: the cue sensor reads CLEAR. -/
def cueClears (p : Proj) (s : State) : State := s.modTrm p fun t => { t with cueMark := some false }

/-- CUE_SENSOR_CLEAR_EDGE (R75): CLEAR is recorded. -/
def execCueSensorClearEdge (p : Proj) (s : State) : Outcome :=
  .next (cueClears p (s.cleanChange (.cueSensor p) false))

/-! ## The loop switch (R84, R85) -/

/-- R84: the count is not less than the run length. -/
def Trm.pastEnd (t : Trm) : Bool :=
  match t.runLength with
  | some l => l ≤ t.count
  | none => false

def loopOpens (p : Proj) (s : State) : State :=
  let s := s.modTrm p fun t => { t with loopClosed := some false }
  let t := s.trm.get p
  if t.motor then
    if t.pastEnd then (s.stopMotor p).emit (.runoutReached p t.count) else s.emit (.filmBreak p t.count)
  else s

/-- LOOP_OPENING_EDGE (R84, R85). -/
def execLoopOpeningEdge (p : Proj) (s : State) : Outcome :=
  .next (loopOpens p (s.cleanChange (.loopSwitch p) false))

/-- R85: the loop switch reads CLOSED. -/
def loopCloses (p : Proj) (s : State) : State := s.modTrm p fun t => { t with loopClosed := some true }

/-- LOOP_CLOSING_EDGE (R85). -/
def execLoopClosingEdge (p : Proj) (s : State) : Outcome :=
  .next (loopCloses p (s.cleanChange (.loopSwitch p) true))

/-! ## Run-up failure and stall (R82, R83) -/

def runUpExpiry (p : Proj) (s : State) : State :=
  let t := s.trm.get p
  if t.runUpTimer = true ∧ t.state = .runUp then (s.stopMotor p).emit (.runUpFail p t.count) else s

/-- RUN_UP_TIMER_EXPIRY (R82); a stopped timer does not run out. -/
def execRunUpTimerExpiry (p : Proj) (s : State) : Outcome := .next (runUpExpiry p s)

def stallExpiry (p : Proj) (s : State) : State :=
  let t := s.trm.get p
  if t.stallTimer = true ∧ t.state = .atSpeed then (s.stopMotor p).emit (.stall p t.count) else s

/-- STALL_TIMER_EXPIRY (R83); a stopped timer does not run out. -/
def execStallTimerExpiry (p : Proj) (s : State) : Outcome := .next (stallExpiry p s)

end Sys2Proof.Machine
end

