-- ==== Sys2Proof/Machine/Reads.lean ====
section
/-!
DEFINITION. The reads in parts (R193) with the layouts of 10.4.3: READ SCREEN, READ PROJECTOR, READ LAMP,
READ AUDITORIUM and READ SAFETY.
-/

namespace Sys2Proof.Machine

/-- A two-byte field that is 0 while its record is absent (R190). -/
def half0 (x : Option Nat) : List Byte := bytes2 (x.getD 0)
def word0 (x : Option Nat) : List Byte := bytes4 (x.getD 0)

/-- R193: the reply to a part of a read: the part number, then the part. -/
def partReply (kind tag part : Byte) (data : Option (List Byte)) (s : State) : State :=
  match data with
  | some d => s.reply kind tag .done none (part :: d)
  | none => s.answer kind tag .noSuch

/-! ## READ SCREEN (R51) -/

/-- Part 0, the screen record with the changeover record. With two tails running out its one RUNNING_OUT index is the
lower of the two, which is the model's choice (log entry 34). -/
def screenPart (c : Shc) : List Byte :=
  bytes1 c.state.code ++ bytes1 c.prep.code ++ bytes1 c.current ++ bytes2 c.countdown ++ flag c.preStrike ++
  flag c.douserA ++ flag c.douserB ++ bytes1 c.sound.code ++ flag c.muted ++ bytes2 c.perfCount ++
  indexByte ((c.holding .onScreen).map (·.1)) ++ indexByte ((c.holding .armed).map (·.1)) ++
  indexByte ((c.holding .runningOut).map (·.1)) ++ bytes1 c.progress.code ++ flag c.strikeFrame.isSome ++
  half0 c.strikeFrame ++ indexByte c.trimHold

/-- The eight halt reasons in increasing code order. -/
def haltReasons : List HaltReason := [.filmBreak, .stall, .lamp, .trimOut, .runUpFail, .shutter, .fire, .estop]

/-- The further reasons in increasing code order. -/
def furtherCodes (h : HaltRecord) : List Nat :=
  (haltReasons.filter (fun r => r ∈ h.further)).map HaltReason.code

def pad8 (l : List Byte) : List Byte := l ++ List.replicate (8 - l.length) 0

/-- Part 1, the halt record. -/
def haltPart (c : Shc) : List Byte :=
  match c.halt with
  | some h =>
    flag true ++ bytes1 h.first.code ++ opt1 Proj.num h.reasonProj ++ bytes1 h.point.code ++ bytes1 h.index ++
    bytes2 h.count ++ bytes4 h.time ++ bytes1 (furtherCodes h).length ++
    pad8 ((furtherCodes h).map (BitVec.ofNat 8))
  | none =>
    flag false ++ bytes1 0 ++ bytes1 0 ++ bytes1 0 ++ indexByte none ++ bytes2 0 ++ bytes4 0 ++ bytes1 0 ++ pad8 []

/-- Part 2, the setup. -/
def setupPart (x : ScreenSetup) : List Byte :=
  bytes1 x.f ++ bytes2 x.l0 ++ bytes1 x.cueMode.code ++ bytes1 x.w ++ bytes2 x.allowance ++ bytes1 x.policy.code ++
  bytes2 x.grace ++ bytes1 x.limit ++ bytes1 x.preShow ++ bytes1 x.brk ++ bytes1 x.fin

/-- Part 3, the schedule record and the pending switch. The slot index is held in two bytes: a record kept by a
start wait after slot 65,535 reads 65,535 (log entry 8). -/
def schedulePart (c : Shc) : List Byte :=
  (match c.schedule with
  | some x =>
    flag true ++ bytes4 x.t0 ++ bytes4 x.tc ++ bytes2 x.np ++ bytes2 (min Config.maxSlot x.k) ++ bytes1 x.miss ++
    flag x.suspended ++ flag x.wait.isSome ++ word0 x.wait ++ flag x.preStrike
  | none => List.replicate 21 0) ++
  (match c.switch with
  | some w => flag true ++ bytes4 w.t0 ++ bytes4 w.tc ++ bytes2 w.np
  | none => List.replicate 11 0)

/-- The seven flags of a side's douser gate (R72). -/
def gateFlags (s : State) (p : Proj) : List Byte :=
  flag (s.douserCommand p) ++ flag (s.vetoClear p) ++ flag (s.lampStable p) ++ flag (s.atSpeed p) ++
  flag (s.shutterRaised p) ++ flag (!s.fireLatched) ++ flag (s.douserOpen p)

/-- Part 4, the douser gate. -/
def gatePart (s : State) (sc : Screen) : List Byte := gateFlags s (sc.proj .a) ++ gateFlags s (sc.proj .b)

def screenData (s : State) (sc : Screen) (part : Nat) : Option (List Byte) :=
  let c := s.shc.get sc
  match part with
  | 0 => some (screenPart c)
  | 1 => some (haltPart c)
  | 2 => some (setupPart c.setup)
  | 3 => some (schedulePart c)
  | 4 => some (gatePart s sc)
  | _ => none

def readScreen (tag screen part : Byte) (s : State) : State :=
  match screenOf screen with
  | none => s.answer 0x50 tag .noSuch
  | some sc => partReply 0x50 tag part (screenData s sc part.toNat) s

/-- READ_SCREEN (R51, R193). -/
def execReadScreen (tag screen part : Byte) (s : State) : Outcome :=
  .next (readScreen tag screen part (s.taken (.readScreen tag screen part)))

/-! ## READ PROJECTOR (R94) -/

def windowFields : Option CueWindow → List Byte
  | some w => bytes1 w.cue.code ++ bytes2 w.centre ++ bytes1 w.w ++ bytes1 w.mode.code
  | none => bytes1 0 ++ bytes2 0 ++ bytes1 0 ++ bytes1 0

def projectorData (s : State) (p : Proj) : List Byte :=
  let t := s.trm.get p
  flag t.motor ++ bytes1 t.state.code ++ bytes2 t.count ++ half0 t.runLength ++ flag t.lastPeriod.isSome ++
  half0 t.lastPeriod ++ bytes1 t.goodRun ++ windowFields t.window ++ bytes1 (levelCode t.loopClosed) ++
  bytes1 (levelCode t.cueMark) ++ bytes1 t.stray ++ flag t.strayOverflow ++ flag (s.douserCommand p) ++
  flag (s.douserOpen p) ++ bytes1 (s.bsu.shutters.get p).state.code ++ bytes1 (vetoCode (s.bsu.vetoes.get p)) ++
  bytes1 (s.alc.get p).state.code

/-- R94: the stray-cue counter and the overflow flag are cleared after the reply is formed. -/
def Trm.clearStray (t : Trm) : Trm := { t with stray := 0, strayOverflow := false }

def readProjector (tag proj : Byte) (s : State) : State :=
  match projOf proj with
  | none => s.answer 0x51 tag .noSuch
  | some p => (s.reply 0x51 tag .done none (projectorData s p)).modTrm p Trm.clearStray

/-- READ_PROJECTOR (R94). -/
def execReadProjector (tag proj : Byte) (s : State) : Outcome :=
  .next (readProjector tag proj (s.taken (.readProjector tag proj)))

/-! ## READ LAMP (R115, R130) -/

/-- Part 0, the lamp record. -/
def lampPart (s : State) (p : Proj) : List Byte :=
  let a := s.alc.get p
  bytes1 a.state.code ++ bytes1 a.lastCause.code ++ opt1 Withheld.code a.withheld ++ bytes1 a.attempts ++
  bytes1 a.limitInForce ++ bytes1 a.phase.code ++ bytes1 a.goodRun ++ bytes1 a.inBand ++ bytes1 a.lowRun ++
  bytes2 a.acc ++ bytes2 a.vm ++ bytes1 a.im ++ bytes2 a.trim ++ bytes2 a.consumed ++ bytes2 a.remaining ++
  bytes4 a.avail ++ flag a.contactor ++ flag a.striker ++ flag s.bsu.proven ++ flag s.fireLatched

def serviceFields : Option ServiceRecord → List Byte
  | some v =>
    flag true ++ bytes1 v.screen.num ++ bytes1 v.bank.code ++ bytes1 v.index ++ bytes2 v.title ++
    bytes2 v.runFrames ++ bytes1 v.f ++ flag v.lowReported
  | none =>
    flag false ++ bytes1 0 ++ bytes1 0 ++ indexByte none ++ bytes2 0 ++ bytes2 0 ++ bytes1 0 ++ flag false

/-- Part 1, the setup and the service record. -/
def lampSetupPart (a : Alc) : List Byte :=
  let x := a.setup
  bytes2 x.vset ++ bytes1 x.d ++ bytes1 x.kf ++ bytes1 x.band ++ bytes1 x.b ++ bytes1 x.inom ++ bytes1 x.imin ++
  bytes2 x.lead ++ bytes1 x.limit ++ bytes2 x.margin ++ flag x.auto ++ serviceFields a.service

def lampData (s : State) (p : Proj) (part : Nat) : Option (List Byte) :=
  match part with
  | 0 => some (lampPart s p)
  | 1 => some (lampSetupPart (s.alc.get p))
  | _ => none

def readLamp (tag lamp part : Byte) (s : State) : State :=
  match projOf lamp with
  | none => s.answer 0x52 tag .noSuch
  | some p => partReply 0x52 tag part (lampData s p part.toNat) s

/-- READ_LAMP (R115, R130, R193). -/
def execReadLamp (tag lamp part : Byte) (s : State) : Outcome :=
  .next (readLamp tag lamp part (s.taken (.readLamp tag lamp part)))

/-! ## READ AUDITORIUM (R153) -/

/-- A rank: its levels, fade time and origin; an empty rank reads 0 with origin 0xFF. -/
def rankFields : Option LightRequest → List Byte
  | some q => bytes1 q.house ++ bytes1 q.aisle ++ bytes1 q.stage ++ bytes2 q.fade ++ bytes1 (originCode (some q.origin))
  | none => bytes1 0 ++ bytes1 0 ++ bytes1 0 ++ bytes2 0 ++ bytes1 (originCode none)

/-- Part 0, the source table and the tracker. -/
def tablePart (h : Hlc) (m : Mpt) : List Byte :=
  bytes1 (rankCode h.winner) ++ rankFields h.fire ++ rankFields h.halt ++ rankFields h.console ++
  rankFields h.show_ ++ bytes1 h.floor ++ flag m.locked ++ bytes2 m.halfPeriod ++ flag m.lastInterval.isSome ++
  half0 m.lastInterval ++ bytes1 m.run.length

/-- One channel: its fade record, the output level and the last firing delay, 0xFFFF when not fired or while the
MPT is UNLOCKED. The output level is the one R131 forms; the AISLE output after the floor stands last in the
part. -/
def channelFields (locked : Bool) (x : ChannelRec) : List Byte :=
  bytes2 x.fade.fine ++ bytes2 x.fade.start ++ bytes2 x.fade.target ++ bytes2 x.fade.ticks ++ bytes2 x.fade.time ++
  bytes1 (outputLevel x.fade.fine) ++ bytes2 (if locked then x.delay.getD 0xFFFF else 0xFFFF)

/-- Part 1, the channels. -/
def channelsPart (h : Hlc) (m : Mpt) : List Byte :=
  channelFields m.locked h.house ++ channelFields m.locked h.aisle ++ channelFields m.locked h.stage ++
  bytes1 (h.output .aisle)

def presetFields (x : Preset) : List Byte := bytes1 x.house ++ bytes1 x.aisle ++ bytes1 x.stage ++ bytes2 x.fade

/-- Part 2, the presets. -/
def presetsPart (h : Hlc) : List Byte := ((List.range 8).map fun n => presetFields (h.preset n)).flatten

def auditoriumData (s : State) (sc : Screen) (part : Nat) : Option (List Byte) :=
  let h := s.hlc.get sc
  match part with
  | 0 => some (tablePart h s.mpt)
  | 1 => some (channelsPart h s.mpt)
  | 2 => some (presetsPart h)
  | _ => none

def readAuditorium (tag aud part : Byte) (s : State) : State :=
  match screenOf aud with
  | none => s.answer 0x53 tag .noSuch
  | some sc => partReply 0x53 tag part (auditoriumData s sc part.toNat) s

/-- READ_AUDITORIUM (R153, R193). -/
def execReadAuditorium (tag aud part : Byte) (s : State) : Outcome :=
  .next (readAuditorium tag aud part (s.taken (.readAuditorium tag aud part)))

/-! ## READ SAFETY (R172) -/

def fireFields : Option FireRecord → List Byte
  | some r =>
    flag true ++ bytes1 r.first.code ++ flag r.input ++ flag r.link ++ flag r.alarm ++ opt1 Proj.num r.linkProj ++
    bytes4 r.time
  | none => flag false ++ bytes1 0 ++ flag false ++ flag false ++ flag false ++ bytes1 0 ++ bytes4 0

/-- Part 0, the booth. -/
def boothPart (s : State) : List Byte :=
  let b := s.bsu
  fireFields b.fire ++ flag b.estop.isSome ++ word0 b.estop ++ flag b.proven ++ flag b.provingTimer ++
  flag b.lossTimer ++ flag s.motorHold ++ bytes1 (levelCode b.fireInput) ++ bytes1 (levelCode b.estopInput) ++
  bytes1 (levelCode b.exhaustInput)

def shutterFields (b : Bsu) (p : Proj) : List Byte :=
  let x := b.shutters.get p
  bytes1 x.state.code ++ bytes1 x.reason.code ++ flag x.raiseTimer ++ bytes1 (levelCode x.up) ++
  bytes1 (vetoCode (b.vetoes.get p))

/-- Part 1, the shutters. -/
def shuttersPart (b : Bsu) : List Byte := (Proj.all.map (shutterFields b)).flatten

def safetyData (s : State) (part : Nat) : Option (List Byte) :=
  match part with
  | 0 => some (boothPart s)
  | 1 => some (shuttersPart s.bsu)
  | _ => none

def readSafety (tag part : Byte) (s : State) : State := partReply 0x54 tag part (safetyData s part.toNat) s

/-- READ_SAFETY (R172, R193). -/
def execReadSafety (tag part : Byte) (s : State) : Outcome :=
  .next (readSafety tag part (s.taken (.readSafety tag part)))

end Sys2Proof.Machine
end

