-- ==== Sys2Proof/Machine/Requests.lean ====
section
/-!
DEFINITION. The console's requests of a performance (chapter 2): START, RESUME, ABORT and SET SCREEN, with the
transport fields of the setup (R93).
-/

namespace Sys2Proof.Machine

/-! ## The start test (R21, R29) -/

/-- The outcome of the test of a first entry: the reel to start, or the reason of R21. -/
inductive StartTest where
  | ready (index : Nat) (r : Reel) (short : Bool)
  | notReady (reason : NotReady)
  deriving DecidableEq, Repr

/-- R20, R21, R29: the first entry of the active bank is resolved and tested as a start entry. -/
def State.testStart (s : State) (sc : Screen) : StartTest × State :=
  let c := s.shc.get sc
  let s := s.noteFault sc 0 c.first
  match c.first with
  | .reel i r =>
    match s.judge sc i r .coldStart with
    | (.armable short, s) => (.ready i r short, s)
    | (.fails x, s) => (.notReady x, s)
  | _ => (.notReady (if s.fireLatched then .fireLock else .notThreaded), s)

/-! ## START (R29) -/

/-- R29 item 6, R46, R47: a DARK lamp is sent a STRIKE as part of a check; the reason of a refusal. -/
def State.strikeDark (s : State) (p : Proj) : Option NotReady × State :=
  if (s.alc.get p).state = .dark then
    match s.askStrike p with
    | (.accepted, s') => (none, s')
    | (x, s') => (some (lampReason x), s')
  else (none, s)

def startScreen (tag : Byte) (sc : Screen) (s : State) : State :=
  if (s.shc.get sc).state ≠ .idle then s.answer 0x30 tag .busy
  else if s.fireLatched then s.answer 0x30 tag .fireLock
  else if s.estopLatched then s.answer 0x30 tag (.notReady .estop)
  else
    match s.testStart sc with
    | (.notReady x, s) => s.answer 0x30 tag (.notReady x)
    | (.ready i r short, s) =>
      match s.strikeDark (sc.proj r.side) with
      | (some x, s) => s.answer 0x30 tag (.notReady x)
      | (none, s) => (s.bringUp sc .start i r short .start).answer 0x30 tag .accepted

def start (tag screen : Byte) (s : State) : State :=
  match screenOf screen with
  | none => s.answer 0x30 tag .noSuch
  | some sc => startScreen tag sc s

/-- START (R29). -/
def execStart (tag screen : Byte) (s : State) : Outcome := .next (start tag screen (s.taken (.start tag screen)))

/-! ## RESUME (R45 to R48) -/

/-- R46, R47: the check of a reel to be brought up: armable, and its lamp, if DARK, accepts a STRIKE. -/
def State.checkReel (s : State) (sc : Screen) (i : Nat) (r : Reel) : (NotReady ⊕ Bool) × State :=
  match s.judgeStart sc i r with
  | (.fails x, s) => (.inl x, s)
  | (.armable short, s) =>
    match s.strikeDark (sc.proj r.side) with
    | (some x, s) => (.inl x, s)
    | (none, s) => (.inr short, s)

/-- R45: RESUME in an INTERVAL of duration 0. -/
def resumeInterval (tag : Byte) (sc : Screen) (s : State) : State :=
  if s.estopLatched then s.answer 0x31 tag (.notReady .estop)
  else
    let cold :=
      match (s.shc.get sc).next (s.shc.get sc).current with
      | .reel i r => match (s.judgeStart sc i r).1 with | .armable _ => true | .fails _ => false
      | _ => false
    (s.endInterval sc).answer 0x31 tag (if cold then .accepted else .done)

/-- R46: RESUME in GAP. -/
def resumeGap (tag : Byte) (sc : Screen) (s : State) : State :=
  if s.estopLatched then s.answer 0x31 tag (.notReady .estop)
  else
    let c := s.shc.get sc
    let s := s.noteFault sc (c.current + 1) (c.next c.current)
    match c.next c.current with
    | .reel i r =>
      match s.checkReel sc i r with
      | (.inl x, s) => s.answer 0x31 tag (.notReady x)
      | (.inr short, s) => (s.bringUp sc .cont i r short .cont).answer 0x31 tag .accepted
    | _ => s.answer 0x31 tag (.notReady .notThreaded)

/-- R47: every condition holds: the halt record is removed and the HALT rank released. -/
def State.leaveHalt (s : State) (sc : Screen) : State :=
  (s.modShc sc fun c => { c with halt := none }).emit (.haltRelease sc)

/-- R47: the loop switch reads CLOSED; unsettled reads OPEN (R76). -/
def Trm.closed (t : Trm) : Bool := t.loopClosed = some true

/-- R47, R48: RESUME at a PICTURE resume point. -/
def resumePicture (tag : Byte) (sc : Screen) (s : State) : State :=
  match (s.shc.get sc).holding .onScreen with
  | none => s.answer 0x31 tag (.notReady .notThreaded)
  | some (i, r) =>
    let p := sc.proj r.side
    if s.shutterRaised p = false then s.answer 0x31 tag (.notReady .shutter)
    else if (s.trm.get p).closed = false then s.answer 0x31 tag (.notReady .loop)
    else
      match (if (s.alc.get p).state.lit then (.accepted, s) else s.askStrike p : Result × State) with
      | (.accepted, s) => ((s.leaveHalt sc).bringUp sc .resume i r false .resume).answer 0x31 tag .accepted
      | (x, s) => s.answer 0x31 tag (.notReady (lampReason x))

/-- R47, R48: RESUME at a REEL resume point. -/
def resumeReel (tag : Byte) (sc : Screen) (i : Nat) (s : State) : State :=
  match ((s.shc.get sc).entry i).kind with
  | .reel r =>
    match s.checkReel sc i r with
    | (.inl x, s) => s.answer 0x31 tag (.notReady x)
    | (.inr short, s) => ((s.leaveHalt sc).bringUp sc .cont i r short .resume).answer 0x31 tag .accepted
  | _ => s.answer 0x31 tag (.notReady .notThreaded)

/-- R47, R48: RESUME at an AFTER resume point. -/
def resumeAfter (tag : Byte) (sc : Screen) (i : Nat) (s : State) : State :=
  let c := s.shc.get sc
  let s := s.noteFault sc (i + 1) (c.next i)
  match c.next i with
  | .fault _ _ => s.answer 0x31 tag (.notReady .notThreaded)
  | .interval j d q => ((s.leaveHalt sc).enterInterval sc j d q .resume).answer 0x31 tag .done
  | .finish => (((s.leaveHalt sc).postShow sc c.setup.fin).endPerformance sc).answer 0x31 tag .done
  | .reel j r =>
    match s.checkReel sc j r with
    | (.inl x, s) => s.answer 0x31 tag (.notReady x)
    | (.inr short, s) => ((s.leaveHalt sc).bringUp sc .cont j r short .resume).answer 0x31 tag .accepted

/-- R47: RESUME in HALTED. -/
def resumeHalted (tag : Byte) (sc : Screen) (s : State) : State :=
  if s.estopLatched then s.answer 0x31 tag (.notReady .estop)
  else
    match (s.shc.get sc).halt with
    | none => s.answer 0x31 tag (.notReady .notThreaded)
    | some h =>
      match h.point with
      | .picture => resumePicture tag sc s
      | .reel => resumeReel tag sc h.index s
      | .after => resumeAfter tag sc h.index s

def resumeScreen (tag : Byte) (sc : Screen) (s : State) : State :=
  let c := s.shc.get sc
  if s.fireLatched then s.answer 0x31 tag .fireLock
  else
    match c.state with
    | .idle => s.answer 0x31 tag .busy
    | .preparing => s.answer 0x31 tag .busy
    | .showing => s.answer 0x31 tag .busy
    | .ending => s.answer 0x31 tag .busy
    | .interval => if 0 < c.countdown then s.answer 0x31 tag .busy else resumeInterval tag sc s
    | .gap => resumeGap tag sc s
    | .halted => resumeHalted tag sc s

def resume (tag screen : Byte) (s : State) : State :=
  match screenOf screen with
  | none => s.answer 0x31 tag .noSuch
  | some sc => resumeScreen tag sc s

/-- RESUME (R45 to R48). -/
def execResume (tag screen : Byte) (s : State) : Outcome :=
  .next (resume tag screen (s.taken (.resume tag screen)))

/-! ## ABORT (R49) -/

/-- R49 item 4. -/
def Entry.abort (e : Entry) : Entry :=
  match e.state with
  | .armed => e.become .loaded
  | .onScreen => e.become .loaded
  | .runningOut => e.become .loaded
  | .active => e.become .loaded
  | _ => { e.rewindInterval with short := false }

/-- R49 items 4 to 6 and 8 at the SHC. -/
def Shc.abort (c : Shc) : Shc :=
  { (c.mapActive Entry.abort).idle with countdown := 0, preStrike := false, halt := none }

/-- R49: the performance of a screen that is not IDLE is ended. -/
def State.abort (s : State) (sc : Screen) : State :=
  let old := (s.shc.get sc).state
  let s := (s.modShc sc Shc.blackout).motorsOff sc
  let s := (s.shcExtinguish (sc.proj .a)).shcExtinguish (sc.proj .b)
  let s := ((s.modShc sc Shc.abort).unserve (sc.proj .a)).unserve (sc.proj .b)
  let s := (s.emit (.haltRelease sc)).postShow sc (s.shc.get sc).setup.fin
  (s.noteScreen sc old .abort none).testSwitch sc s.bck.time

def abort (tag screen : Byte) (s : State) : State :=
  match screenOf screen with
  | none => s.answer 0x32 tag .noSuch
  | some sc =>
    if (s.shc.get sc).state = .idle then s.answer 0x32 tag .already
    else (s.abort sc).answer 0x32 tag .done

/-- ABORT (R49). -/
def execAbort (tag screen : Byte) (s : State) : Outcome := .next (abort tag screen (s.taken (.abort tag screen)))

/-! ## SET SCREEN (R27, R28, R93) -/

def cueModeOf : Nat → Option CueMode
  | 0 => some .counted | 1 => some .sensed
  | _ => none

def policyOf : Nat → Option TrimPolicy
  | 0 => some .hold | 1 => some .run
  | _ => none

/-- R27, R93: the setup SET SCREEN asks for with its clamped fields clamped; absent where BAD FIELD refuses. -/
def screenSetupOf (x : ScreenFields) : Option ScreenSetup :=
  match cueModeOf x.cueMode.toNat, policyOf x.policy.toNat with
  | some mode, some policy =>
    if (x.f = 24 ∨ x.f = 25) ∧ (x.limit = 4 ∨ x.limit = 8 ∨ x.limit = 16 ∨ x.limit = 32) ∧ x.preShow.toNat ≤ 7 ∧
        x.brk.toNat ≤ 7 ∧ x.fin.toNat ≤ 7 then
      some
        { f := x.f.toNat, l0 := clamp 96 384 x.l0.toNat, cueMode := mode, w := min 96 x.w.toNat,
          allowance := clamp 48 480 x.allowance.toNat, policy := policy, grace := min 1800 x.grace.toNat,
          limit := x.limit.toNat, preShow := x.preShow.toNat, brk := x.brk.toNat, fin := x.fin.toNat }
    else none
  | _, _ => none

/-- R27, R93: some field of the request was clamped. -/
def screenClamped (x : ScreenFields) : Bool :=
  x.l0.toNat < 96 || 384 < x.l0.toNat || 96 < x.w.toNat || x.allowance.toNat < 48 || 480 < x.allowance.toNat ||
    1800 < x.grace.toNat

/-- R27, R93: a change of f, L0 or the runout allowance. -/
def changesRun (held asked : ScreenSetup) : Bool :=
  !(held.f = asked.f && held.l0 = asked.l0 && held.allowance = asked.allowance)

def setScreen (tag screen : Byte) (x : ScreenFields) (s : State) : State :=
  match screenOf screen with
  | none => s.answerSet 0x20 tag .noSuch false
  | some sc =>
    let c := s.shc.get sc
    match screenSetupOf x with
    | none => s.answerSet 0x20 tag .badField false
    | some setup =>
      if c.state ≠ .idle ∧ changesRun c.setup setup = true then s.answerSet 0x20 tag .busy false
      else (s.modShc sc fun c => { c with setup := setup }).answerSet 0x20 tag .done (screenClamped x)

/-- SET_SCREEN (R27, R93). -/
def execSetScreen (tag screen : Byte) (fields : ScreenFields) (s : State) : Outcome :=
  .next (setScreen tag screen fields (s.taken (.setScreen tag screen fields)))

end Sys2Proof.Machine
end

