-- ==== Sys2Proof/Machine/Sampling.lean ====
section
/-!
DEFINITION. The switch-type inputs (section 4.1): one sample of an input with the filter of R75, the settling of
R76 and R154, and the sample of every input.
-/

namespace Sys2Proof.Machine

/-! ## The filter (R75, R76) -/

/-- R75: the history after a sample: the last three samples, oldest first. -/
def shiftIn (h : List Bool) (level : Bool) : List Bool := (if h.length < 3 then h else h.drop 1) ++ [level]

/-- R75, R76: the accepted level of a history: that of at least two of its three samples, and none before the third. -/
def accepted : List Bool → Option Bool
  | [a, b, c] => some (majority a b c)
  | _ => none

/-! ## Settling (R76, R154) -/

/-- R154: the exhaust input settles; at PROVEN the proving begins. -/
def Bsu.settleExhaust (b : Bsu) (level : Bool) : Bsu :=
  { b with exhaustInput := some level, provingTimer := b.provingTimer || (level && !b.proven) }

/-- R76, R154: an unsettled input settles at `level`; this is not an edge, but the fire and the emergency-stop input
that settle at ASSERTED act as at one. -/
def State.settle (s : State) (level : Bool) : SwitchInput → State
  | .cueSensor p => s.modTrm p fun t => { t with cueMark := some level }
  | .loopSwitch p => s.modTrm p fun t => { t with loopClosed := some level }
  | .shutterUp p => s.modBsu (·.modShutter p fun x => { x with up := some level })
  | .fire => fireInputEdge level s
  | .estop => estopInputEdge level s
  | .exhaust => s.modBsu (·.settleExhaust level)

def inputSettling (input : SwitchInput) (s1 s2 s3 : Bool) (s : State) : State :=
  if (s.inputLevel input).isNone then
    ((s.modPins (·.setLevel s3 input)).keepSamples [s1, s2, s3] input).settle (majority s1 s2 s3) input
  else s

/-- INPUT_SETTLING (R76, R154): the third sample after a reset, with the three samples. -/
def execInputSettling (input : SwitchInput) (s1 s2 s3 : Bool) (s : State) : Outcome :=
  .next (inputSettling input s1 s2 s3 s)

/-! ## One sample (R75) -/

/-- R75: an edge of the accepted level of an input, to `level`. -/
def State.inputEdge (s : State) (level : Bool) : SwitchInput → State
  | .cueSensor p => if level then markEdge p s else cueClears p s
  | .loopSwitch p => if level then loopCloses p s else loopOpens p s
  | .shutterUp p => shutterSensorEdge p level s
  | .fire => fireInputEdge level s
  | .estop => estopInputEdge level s
  | .exhaust => s.modBsu (·.exhaustEdge level)

/-- R75, R76: the level at the pin of input `i` is sampled; the sample that makes the majority differ from the
accepted level is the edge, and the third sample after a reset settles the input. -/
def State.sampleInput (s : State) (i : SwitchInput) : State :=
  let h := shiftIn (s.samples i) (s.pins.level i)
  let s' := s.keepSamples h i
  match s.inputLevel i, accepted h with
  | none, some level => s'.settle level i
  | some old, some level => if old = level then s' else s'.inputEdge level i
  | _, none => s'

/-- The 27 switch-type inputs, in the order in which the model samples them (log entry 23). -/
def allInputs : List SwitchInput :=
  Proj.all.map .cueSensor ++ Proj.all.map .loopSwitch ++ Proj.all.map .shutterUp ++ [.fire, .estop, .exhaust]

/-- R75: a sample of every input of the list, each at the state the one before it left. -/
def State.sampleInputs (s : State) : List SwitchInput → State
  | [] => s
  | i :: rest => (s.sampleInput i).sampleInputs rest

end Sys2Proof.Machine
end

