-- ==== Sys2Proof/Machine/Schedules.lean ====
section
/-!
DEFINITION. The schedule at the SHC (sections 1.8 to 1.12): the booth second with its interval work, start
waits, slots, missed starts and pre-strike; the clock set.
-/

namespace Sys2Proof.Machine

def State.setSchedule (s : State) (sc : Screen) (x : Option Schedule) : State :=
  s.modShc sc fun c => { c with schedule := x }

/-- R18: slot k takes part in a second at booth time `now`: it is left to be taken and its time has come. -/
def Schedule.due (x : Schedule) (now : Nat) : Bool := !x.exhausted && x.slotTime ≤ now

/-- R20, R22: slot k is gone: k advances and the pre-strike flag is cleared. -/
def Schedule.advance (x : Schedule) : Schedule := { x with k := x.k + 1, preStrike := false }

/-! ## Missed slots (R21, R22) -/

/-- R21: the SCHEDULE reason of a start that is not possible. -/
def missReason : NotReady → SchedReason
  | .fireLock => .fireLock
  | .lampFailed => .lampFailed
  | .trimShort => .trimShort
  | _ => .notThreaded

/-- R22: the slot of time `slot` is missed, `x` being the schedule without it. The count rises and, at the
limit, the schedule is suspended. The BLOCKED notice carries no reason, and its reason byte is 0 (log entry 35). -/
def State.missSlot (s : State) (sc : Screen) (x : Schedule) (reason : SchedReason) (slot : Nat) : State :=
  let m := satSucc 255 x.miss
  let s := s.note (.schedule sc .missed (some reason) 1 slot)
  match ({ x with miss := m } : Schedule).settle with
  | none => s.setSchedule sc none
  | some x =>
    if (s.shc.get sc).setup.limit ≤ m then
      (s.setSchedule sc (some { x with suspended := true })).note (.schedule sc .blocked none m 0)
    else s.setSchedule sc (some x)

/-! ## Start waits and slots (R20, R21) -/

/-- R21: the open start wait `w` is dealt with at booth time `now`. -/
def State.dealWait (s : State) (sc : Screen) (x : Schedule) (w now : Nat) : State :=
  let closed : Schedule := { x with wait := none }
  if (s.shc.get sc).state ≠ .idle then s.setSchedule sc closed.settle
  else
    match s.testStart sc with
    | (.ready i r short, s) => (s.setSchedule sc closed.settle).bringUp sc .start i r short .start
    | (.notReady reason, s) =>
      if w + (s.shc.get sc).setup.grace ≤ now ∨ x.due now = true then s.missSlot sc closed (missReason reason) w
      else s

/-- R20, R22: slot k, which is due, is taken or missed. -/
def State.dealSlot (s : State) (sc : Screen) (x : Schedule) (now : Nat) : State :=
  let next := x.advance
  if (s.shc.get sc).state ≠ .idle then s.missSlot sc next .overrun x.slotTime
  else
    match s.testStart sc with
    | (.ready i r short, s) => (s.setSchedule sc next.settle).bringUp sc .start i r short .start
    | (.notReady reason, s) =>
      if x.slotTime + (s.shc.get sc).setup.grace ≤ now then s.missSlot sc next (missReason reason) x.slotTime
      else s.setSchedule sc (some { next with wait := some x.slotTime })

/-! ## The pre-strike of slot k (R23) -/

def State.slotPreStrike (s : State) (sc : Screen) (x : Schedule) (now : Nat) : State :=
  let c := s.shc.get sc
  if x.preStrike || x.exhausted then s
  else
    let s := s.noteFault sc 0 c.first
    match c.first with
    | .reel i r =>
      let p := sc.proj r.side
      let a := s.alc.get p
      if x.slotTime - a.setup.lead ≤ now ∧ now < x.slotTime then
        let s := s.setSchedule sc (some { x with preStrike := true })
        if c.state = .idle ∧ (c.entry i).state = .confirmed ∧ a.state = .dark then (s.askStrike p).2 else s
      else s
    | _ => s

/-! ## The booth second (R19) -/

/-- The schedule of a screen, absent also when it is suspended: a suspended schedule takes no part. -/
def State.running (s : State) (sc : Screen) : Option Schedule :=
  match (s.shc.get sc).schedule with
  | some x => if x.suspended then none else some x
  | none => none

/-- R19: the open start wait. -/
def State.waitSecond (s : State) (sc : Screen) (now : Nat) : State :=
  match s.running sc with
  | some x =>
    match x.wait with
    | some w => s.dealWait sc x w now
    | none => s
  | none => s

/-- R19: slot k. -/
def State.slotSecond (s : State) (sc : Screen) (now : Nat) : State :=
  match s.running sc with
  | some x => if x.due now then s.dealSlot sc x now else s
  | none => s

/-- R19: the pre-strike of the slot that is then slot k. -/
def State.preStrikeSecond (s : State) (sc : Screen) (now : Nat) : State :=
  match s.running sc with
  | some x => s.slotPreStrike sc x now
  | none => s

/-- R19: the work of a booth second at booth time `now`. A switch taken in it on a booth second past T0' leaves a slot
whose time has come: that slot is dealt with in this same second, where R16 names the next (log entry 31). -/
def boothSecond (sc : Screen) (now : Nat) (s : State) : State :=
  ((((s.intervalSecond sc).testSwitch sc now).waitSecond sc now).slotSecond sc now).preStrikeSecond sc now

/-- BOOTH_SECOND_EVENT (R19). -/
def execBoothSecondEvent (sc : Screen) (time : Nat) (s : State) : Outcome :=
  .next (boothSecond sc time (s.taken (.boothSecondEvent sc time)))

/-- R24: the clock is set from `old` to `new`. -/
def clockSet (sc : Screen) (old new : Nat) (s : State) : State :=
  match s.running sc with
  | some x => if old < new then s.skip sc x (fun t => t < new) .clockSet else s
  | none => s

/-- CLOCK_SET_EVENT (R24). -/
def execClockSetEvent (sc : Screen) (old new : Nat) (s : State) : Outcome :=
  .next (clockSet sc old new (s.taken (.clockSetEvent sc old new)))

end Sys2Proof.Machine
end

