-- ==== Sys2Proof/Machine/Dispatch.lean ====
section
/-!
DEFINITION. `exec`: one arm per row of spec/opcode_table.json, each one call of the command's meaning.
-/

namespace Sys2Proof.Machine

def exec (i : Instr) (s : State) : Host.Outcome State Fault Refusal :=
  match i with
  | .powerOn straps => Sys2Proof.Machine.execPowerOn straps s
  | .boothReset tag force => Sys2Proof.Machine.execBoothReset tag force s
  | .boothResetMade straps => Sys2Proof.Machine.execBoothResetMade straps s
  | .identify tag => Sys2Proof.Machine.execIdentify tag s
  | .quiet tag setting => Sys2Proof.Machine.execQuiet tag setting s
  | .setClock tag time => Sys2Proof.Machine.execSetClock tag time s
  | .readClock tag => Sys2Proof.Machine.execReadClock tag s
  | .setScreen tag screen fields => Sys2Proof.Machine.execSetScreen tag screen fields s
  | .setLamp tag lamp fields => Sys2Proof.Machine.execSetLamp tag lamp fields s
  | .setAuditorium tag aud floor => Sys2Proof.Machine.execSetAuditorium tag aud floor s
  | .setPreset tag aud preset house aisle stage fade => Sys2Proof.Machine.execSetPreset tag aud preset house aisle stage fade s
  | .writeEntry tag screen index kind area => Sys2Proof.Machine.execWriteEntry tag screen index kind area s
  | .clearStaged tag screen => Sys2Proof.Machine.execClearStaged tag screen s
  | .readEntry tag screen bank index => Sys2Proof.Machine.execReadEntry tag screen bank index s
  | .switchProgramme tag screen t0 tc np => Sys2Proof.Machine.execSwitchProgramme tag screen t0 tc np s
  | .cancelSwitch tag screen => Sys2Proof.Machine.execCancelSwitch tag screen s
  | .confirmReel tag screen bank index confirm => Sys2Proof.Machine.execConfirmReel tag screen bank index confirm s
  | .withdrawConfirmation tag screen bank index => Sys2Proof.Machine.execWithdrawConfirmation tag screen bank index s
  | .start tag screen => Sys2Proof.Machine.execStart tag screen s
  | .resume tag screen => Sys2Proof.Machine.execResume tag screen s
  | .abort tag screen => Sys2Proof.Machine.execAbort tag screen s
  | .changeNow tag screen => Sys2Proof.Machine.execChangeNow tag screen s
  | .strike asker => Sys2Proof.Machine.execStrike asker s
  | .extinguish asker => Sys2Proof.Machine.execExtinguish asker s
  | .setTrim tag lamp length => Sys2Proof.Machine.execSetTrim tag lamp length s
  | .setLights tag aud mode preset house aisle stage fade => Sys2Proof.Machine.execSetLights tag aud mode preset house aisle stage fade s
  | .releaseLights tag aud => Sys2Proof.Machine.execReleaseLights tag aud s
  | .raiseShutter tag proj => Sys2Proof.Machine.execRaiseShutter tag proj s
  | .dropShutter tag proj => Sys2Proof.Machine.execDropShutter tag proj s
  | .raiseAlarm tag => Sys2Proof.Machine.execRaiseAlarm tag s
  | .clearFire tag => Sys2Proof.Machine.execClearFire tag s
  | .clearEstop tag => Sys2Proof.Machine.execClearEstop tag s
  | .readScreen tag screen part => Sys2Proof.Machine.execReadScreen tag screen part s
  | .readProjector tag proj => Sys2Proof.Machine.execReadProjector tag proj s
  | .readLamp tag lamp part => Sys2Proof.Machine.execReadLamp tag lamp part s
  | .readAuditorium tag aud part => Sys2Proof.Machine.execReadAuditorium tag aud part s
  | .readSafety tag part => Sys2Proof.Machine.execReadSafety tag part s
  | .byteReceived byte stopAtMark => Sys2Proof.Machine.execByteReceived byte stopAtMark s
  | .gapTimerExpiry => Sys2Proof.Machine.execGapTimerExpiry s
  | .lineBreak => Sys2Proof.Machine.execLineBreak s
  | .lineReturnsToMark => Sys2Proof.Machine.execLineReturnsToMark s
  | .takeFrame => Sys2Proof.Machine.execTakeFrame s
  | .frameStart => Sys2Proof.Machine.execFrameStart s
  | .frameSent => Sys2Proof.Machine.execFrameSent s
  | .secondTimerExpiry => Sys2Proof.Machine.execSecondTimerExpiry s
  | .boothSecondEvent sc time => Sys2Proof.Machine.execBoothSecondEvent sc time s
  | .clockSetEvent sc old new => Sys2Proof.Machine.execClockSetEvent sc old new s
  | .motorOnCommand p => Sys2Proof.Machine.execMotorOnCommand p s
  | .motorStop p => Sys2Proof.Machine.execMotorStop p s
  | .cueWindowOpen p cue centre => Sys2Proof.Machine.execCueWindowOpen p cue centre s
  | .cueWindowClose p => Sys2Proof.Machine.execCueWindowClose p s
  | .tachPulse p time => Sys2Proof.Machine.execTachPulse p time s
  | .markEdge p => Sys2Proof.Machine.execMarkEdge p s
  | .loopOpeningEdge p => Sys2Proof.Machine.execLoopOpeningEdge p s
  | .loopClosingEdge p => Sys2Proof.Machine.execLoopClosingEdge p s
  | .runUpTimerExpiry p => Sys2Proof.Machine.execRunUpTimerExpiry p s
  | .stallTimerExpiry p => Sys2Proof.Machine.execStallTimerExpiry p s
  | .atSpeedEvent p count => Sys2Proof.Machine.execAtSpeedEvent p count s
  | .cueFiredEvent p cue how count => Sys2Proof.Machine.execCueFiredEvent p cue how count s
  | .pictureEndReached p count => Sys2Proof.Machine.execPictureEndReached p count s
  | .runoutReached p count => Sys2Proof.Machine.execRunoutReached p count s
  | .runUpFail p count => Sys2Proof.Machine.execRunUpFail p count s
  | .lampStateChange p new old cause => Sys2Proof.Machine.execLampStateChange p new old cause s
  | .setTrimAccepted p => Sys2Proof.Machine.execSetTrimAccepted p s
  | .filmBreak p count => Sys2Proof.Machine.execFilmBreak p count s
  | .stall p count => Sys2Proof.Machine.execStall p count s
  | .refusedStart p => Sys2Proof.Machine.execRefusedStart p s
  | .breakOrStallEvent p kind count => Sys2Proof.Machine.execBreakOrStallEvent p kind count s
  | .shutterDropped p reason => Sys2Proof.Machine.execShutterDropped p reason s
  | .fireEvent sc => Sys2Proof.Machine.execFireEvent sc s
  | .emergencyStopEvent sc => Sys2Proof.Machine.execEmergencyStopEvent sc s
  | .arcSample p vm im => Sys2Proof.Machine.execArcSample p vm im s
  | .strikerTimerExpiry p => Sys2Proof.Machine.execStrikerTimerExpiry p s
  | .attemptTimerExpiry p => Sys2Proof.Machine.execAttemptTimerExpiry p s
  | .coolOffTimerExpiry p => Sys2Proof.Machine.execCoolOffTimerExpiry p s
  | .bsuExtinguish p reason => Sys2Proof.Machine.execBsuExtinguish p reason s
  | .post sc rank preset => Sys2Proof.Machine.execPost sc rank preset s
  | .haltRelease sc => Sys2Proof.Machine.execHaltRelease sc s
  | .fireWrite sc => Sys2Proof.Machine.execFireWrite sc s
  | .fireRelease sc => Sys2Proof.Machine.execFireRelease sc s
  | .fadeTick sc => Sys2Proof.Machine.execFadeTick sc s
  | .zeroCrossPulse time => Sys2Proof.Machine.execZeroCrossPulse time s
  | .silenceTimerExpiry => Sys2Proof.Machine.execSilenceTimerExpiry s
  | .lockChange sc locked => Sys2Proof.Machine.execLockChange sc locked s
  | .halfCycleEvent sc halfPeriod => Sys2Proof.Machine.execHalfCycleEvent sc halfPeriod s
  | .firingTimerExpiry sc ch => Sys2Proof.Machine.execFiringTimerExpiry sc ch s
  | .fireInputEdge asserted => Sys2Proof.Machine.execFireInputEdge asserted s
  | .emergencyStopInputEdge asserted => Sys2Proof.Machine.execEmergencyStopInputEdge asserted s
  | .exhaustProvingEdge proven => Sys2Proof.Machine.execExhaustProvingEdge proven s
  | .shutterUpSensorEdge p up => Sys2Proof.Machine.execShutterUpSensorEdge p up s
  | .provingTimerExpiry => Sys2Proof.Machine.execProvingTimerExpiry s
  | .lossTimerExpiry => Sys2Proof.Machine.execLossTimerExpiry s
  | .raiseTimerExpiry p => Sys2Proof.Machine.execRaiseTimerExpiry p s
  | .inputSettling input s1 s2 s3 => Sys2Proof.Machine.execInputSettling input s1 s2 s3 s
  | .cueSensorClearEdge p => Sys2Proof.Machine.execCueSensorClearEdge p s

end Sys2Proof.Machine
end

