-- ==== Sys2Proof/Machine/Step.lean ====
section
/-!
DEFINITION. One step of the part: the command at the front of the queue; on an empty queue the oldest event that a
block has raised and no block has taken (log entry 1); with neither, the part's own clocks tick (log entry 23).
-/

namespace Sys2Proof.Machine

/-- R75, R181: the tick of an idle part: every switch-type input is sampled and the transmitter sends a byte. -/
def State.tick (s : State) : State := (s.sampleInputs allInputs).modCnl Cnl.byteSent

/-- Commands first, in the order of the queue; then events, in the order they were raised. -/
def step (s : State) : Host.Outcome State Fault Refusal :=
  match s.pending with
  | c :: rest => exec c { s with pending := rest }
  | [] =>
    match s.events with
    | e :: _ => exec e s
    | [] => .next s.tick

/-- The command a table word spells, put at the front of the queue. The table spells none (Decode.lean). -/
def State.withFetchWord (s : State) (nbits w : Nat) : State :=
  match Sys2Proof.decodeTableWord nbits w with
  | some c => { s with pending := c :: s.pending }
  | none => s

end Sys2Proof.Machine
end

