-- ==== Sys2Proof/WellFormed.lean ====
section
/-!
DEFINITION. Which commands the part's surroundings and blocks can give. A request carries a body of the length its
kind allows; a console field may hold any byte, since refusing it is its owner's work (R190). An event carries
values its rule can give it. The meanings are total: an ill-formed command has one too.
-/

namespace Sys2Proof

/-- A frame count (R77). -/
def countOk (n : Nat) : Bool := n ≤ 65535

/-- A booth time (R185). -/
def timeOk (n : Nat) : Bool := n ≤ Config.maxTime

/-- The changes of lamp state and their causes (R98). -/
def lampChangeOk (new old : LampState) : LampCause → Bool
  | .none => false
  | .struck => decide (new = .striking) && (decide (old = .dark) || decide (old = .failed))
  | .arcEstablished => decide (new = .warming) && decide (old = .striking)
  | .stable => decide (new = .stable) && decide (old = .warming)
  | .noStrike => decide (new = .failed) && decide (old = .striking)
  | .arcLost => (decide (new = .striking) || decide (new = .dark)) && (decide (old = .warming) || decide (old = .stable))
  | .extinguished _ => decide (new = .dark) && !decide (old = .dark)
  | .fire => decide (new = .dark) && !decide (old = .dark)
  | .exhaust => decide (new = .dark) && !decide (old = .dark)
  | .trimOut => decide (new = .dark) && (decide (old = .warming) || decide (old = .stable))
  | .trimSet => decide (new = .dark) && decide (old = .failed)

/-- The well-formed commands. -/
def wellFormed : Instr → Bool
  | .writeEntry _ _ _ _ area => area.length = 16
  | .confirmReel _ _ _ _ confirm => !decide (confirm = 0)
  | .boothSecondEvent _ time => timeOk time
  | .clockSetEvent _ old new => timeOk old && timeOk new
  | .cueWindowOpen _ _ centre => 1 ≤ centre && countOk centre
  | .atSpeedEvent _ count => countOk count
  | .cueFiredEvent _ _ how count => !decide (how = .console) && countOk count
  | .pictureEndReached _ count => countOk count
  | .runoutReached _ count => countOk count
  | .runUpFail _ count => countOk count
  | .lampStateChange _ new old cause => lampChangeOk new old cause
  | .filmBreak _ count => countOk count
  | .stall _ count => countOk count
  | .breakOrStallEvent _ _ count => countOk count
  | .shutterDropped _ reason => decide (reason = .console) || decide (reason = .fault) || decide (reason = .link)
  | .arcSample _ vm im => vm ≤ 1023 && im ≤ 255
  | .post _ _ preset => preset < 8
  | .halfCycleEvent _ p => Config.intervalLow ≤ p && p ≤ Config.intervalHigh
  | _ => true

end Sys2Proof
end

