-- ==== Sys2Proof/Safety.lean ====
section
/-!
DEFINITION. What statements about the part are made of: the records of the part by name and a frame over them,
the records one screen owns, and the conditions that a safe part keeps at every command: bounded queues, a shut
booth under fire, a legal transport, lamp and halt record, one threaded reel for a projector.
-/

namespace Sys2Proof

/-- R2: the ranges of an entry's fields. -/
def EntryKind.Ranged : EntryKind → Prop
  | .empty => True
  | .finish => True
  | .interval d q => d ≤ 7200 ∧ q ≤ 7
  | .link t => t ≤ 23
  | .reel r =>
    1000 ≤ r.lp ∧ r.lp ≤ 65535 ∧ 0 < r.fm ∧ r.fm < r.fc ∧ r.fc ≤ r.lp ∧ r.title ≤ 65535 ∧ r.points.length ≤ 2 ∧
    (∀ x ∈ r.points, x.offset ≤ r.lp ∧ x.preset ≤ 7) ∧ r.points.Pairwise fun x y => x.offset ≤ y.offset

/-- R12: the seconds an entry adds to the programme total at frame rate f. -/
def EntryKind.seconds (f : Nat) : EntryKind → Nat
  | .reel r => (r.lp + (f - 1)) / f
  | .interval d _ => d
  | _ => 0

/-- The row of the table that is the edge of an input to `level` (section 4.1, R154). -/
def SwitchInput.edge (level : Bool) : SwitchInput → Instr
  | .cueSensor p => if level then .markEdge p else .cueSensorClearEdge p
  | .loopSwitch p => if level then .loopClosingEdge p else .loopOpeningEdge p
  | .shutterUp p => .shutterUpSensorEdge p level
  | .fire => .fireInputEdge level
  | .estop => .emergencyStopInputEdge level
  | .exhaust => .exhaustProvingEdge level

end Sys2Proof

namespace Sys2Proof.Machine

/-! ## Frames -/

/-- The records of the part (00_scope, Blocks), the queue of commands, the events not yet taken and the pins. -/
inductive Part where
  | pending | events | pins | cnl | bck | mpt | bsu
  | shc (sc : Screen) | hlc (sc : Screen)
  | trm (p : Proj) | alc (p : Proj)
  deriving DecidableEq, Repr

/-- The record `x` reads the same in `s` and in `t`. -/
def Same (s t : State) : Part → Prop
  | .pending => t.pending = s.pending
  | .events => t.events = s.events
  | .pins => t.pins = s.pins
  | .cnl => t.cnl = s.cnl
  | .bck => t.bck = s.bck
  | .mpt => t.mpt = s.mpt
  | .bsu => t.bsu = s.bsu
  | .shc sc => t.shc.get sc = s.shc.get sc
  | .hlc sc => t.hlc.get sc = s.hlc.get sc
  | .trm p => t.trm.get p = s.trm.get p
  | .alc p => t.alc.get p = s.alc.get p

/-- The frame: every record but those listed is unchanged. -/
def KeepsAllBut (s t : State) (changed : List Part) : Prop := ∀ x, x ∉ changed → Same s t x

/-- What a screen's SHC can change (00_scope, R25, R78, R99): its own record, the transport and lamp records of
its two projectors, the Console Link's queues, and the events it raises. -/
def screenParts (sc : Screen) : List Part :=
  [.events, .cnl, .shc sc, .trm (sc.proj .a), .trm (sc.proj .b), .alc (sc.proj .a), .alc (sc.proj .b)]

/-- Two console records differ in the two queues they send from, with the reserved places and the lost count, alone. -/
def SameLine (c d : Cnl) : Prop :=
  d = { c with replies := d.replies, reserved := d.reserved, notices := d.notices, lost := d.lost }

/-- The Console Link's record has taken notices, oldest first, and nothing else. -/
def Noted (c d : Cnl) : Prop := ∃ ns : List Notice, d = ns.foldl Cnl.raise c

/-- The Console Link's record has taken notices, and the notice `n` is one of them. -/
def Told (c d : Cnl) (n : Notice) : Prop :=
  ∃ before after : List Notice, d = (before ++ [n] ++ after).foldl Cnl.raise c

/-- The Console Link's record has taken notices and then the reply `r`. -/
def Answered (c d : Cnl) (r : Reply) : Prop := ∃ ns : List Notice, d = (ns.foldl Cnl.raise c).fill r

/-- The commands of a list, one after another, up to the first that does not go on. -/
def execAll : List Instr → State → Outcome
  | [], s => .next s
  | c :: cs, s =>
    match exec c s with
    | .next t => execAll cs t
    | x => x

/-! ## The Console Link's queues (R173, R179, R182) -/

/-- R173: every queue within its places, a reserved place counting as held; the lost count within a byte. -/
def Cnl.Bounded (c : Cnl) : Prop :=
  c.inbound.length ≤ 4 ∧ c.replies.length + c.reserved ≤ 4 ∧ c.notices.length ≤ 32 ∧ c.lost ≤ 255

/-! ## Booth safety (R155, R157, R160, R164, R167, R169) -/

/-- Under the fire state every shutter is DROPPED; under either latch every veto is set; a raise timer runs
exactly while its shutter is RAISING; the exhaust timers run only on their own side of the exhaust state. -/
structure Bsu.Safe (b : Bsu) : Prop where
  shut : b.fire.isSome = true → ∀ p, (b.shutters.get p).state = .dropped
  vetoed : b.fire.isSome = true ∨ b.estop.isSome = true → ∀ p, (b.vetoes.get p).isSome = true
  raising : ∀ p, (b.shutters.get p).raiseTimer = true ↔ (b.shutters.get p).state = .raising
  proving : b.provingTimer = true → b.proven = false
  losing : b.lossTimer = true → b.proven = true

/-! ## Transports (R77 to R83) -/

/-- A transport record is legal: the motor is off exactly in STOPPED, the run-up timer runs exactly in RUN_UP and
the stall timer exactly in AT_SPEED, and the counters keep their ranges. -/
structure Trm.Legal (t : Trm) : Prop where
  motor : t.motor = false ↔ t.state = .stopped
  runUp : t.runUpTimer = true ↔ t.state = .runUp
  stall : t.stallTimer = true ↔ t.state = .atSpeed
  goodRun : t.goodRun ≤ 12
  count : t.count ≤ 65535
  stray : t.stray ≤ 255

/-! ## Lamps (R95, R100 to R105, R109 to R113, R116) -/

/-- A lamp record is legal: no more trim is burnt than was fitted, the strike timers run in STRIKING alone and as
the strike phase says, the attempts stay within the limit in force, and the tests and the feed keep their ranges. -/
structure Alc.Legal (a : Alc) : Prop where
  burnt : a.consumed ≤ a.trim
  fitted : a.trim ≤ 16000
  striker : a.strikerTimer = true → a.state = .striking ∧ a.phase = .attempt
  attempt : a.attemptTimer = true ↔ a.state = .striking ∧ a.phase = .attempt
  coolOff : a.coolOffTimer = true ↔ a.state = .striking ∧ a.phase = .coolOff
  attempts : a.attempts ≤ a.limitInForce
  left : a.coolOffTimer = true → a.attempts < a.limitInForce
  limit : 1 ≤ a.setup.limit
  inForce : a.limitInForce ≤ 8 ∧ a.setup.limit ≤ 8
  steps : a.steps ≤ 8
  feedLeft : a.acc < 2560
  tests : a.goodRun ≤ 3 ∧ a.inBand ≤ 200 ∧ a.lowRun ≤ 5
  low : a.state = .warming ∨ a.state = .stable → a.lowRun ≤ 4
  carbon : a.state.lit = true → a.consumed < a.trim
  sample : a.vm ≤ 1023 ∧ a.im ≤ 255

/-! ## Screens (R43, R3) -/

/-- R43: the halt record is present exactly in HALTED. -/
def Shc.HaltKept (c : Shc) : Prop := c.halt.isSome = true ↔ c.state = .halted

/-- R3: a state in which the entry's reel is threaded on its projector. -/
def EntryState.threaded : EntryState → Bool
  | .confirmed | .armed | .onScreen | .runningOut => true
  | _ => false

/-- The entries of both banks that are threaded REELs of a side, active or staged alike. -/
def Shc.threadedOn (c : Shc) (side : Side) : List Entry :=
  (c.bank0 ++ c.bank1).filter (·.reelOn side EntryState.threaded)

/-- R1: each bank has 24 entries. -/
def Shc.FullBanks (c : Shc) : Prop := c.bank0.length = 24 ∧ c.bank1.length = 24

/-! ## Halts (R42, R43) -/

/-- R42 items 3 to 5: the entries of the active bank after a halt of a screen whose record was `c`: an ARMED entry
whose motor command was on is LOADED, every RUNNING_OUT entry and an ACTIVE interval are DONE. -/
def Shc.haltEntries (c : Shc) : List Entry :=
  let es := match c.holding .armed with
    | some (i, r) => if c.motor r.side then (c.bank c.active).modify i (·.become .loaded) else c.bank c.active
    | none => c.bank c.active
  es.map fun e =>
    if e.state = .runningOut ∨ e.state = .active then { e with state := .done, short := false } else e

/-- R43: the resume point of a halt. -/
def Shc.haltPoint (c : Shc) : ResumePoint :=
  if c.state = .showing ∨ (c.state = .preparing ∧ c.prep = .resume) then .picture
  else if c.state = .preparing then .reel
  else .after

/-- R42, R43: `t` is `s` after a halt of screen `sc`: both douser commands closed, the sound muted, both motors
commanded off, the entries of R42, the halt record of R43, HALTED, the break preset posted to the HALT rank; no
lamp is touched but that of a RUNNING_OUT entry, which is DARK unless an ARMED entry needs it. (Log entries 7 and 33:
the motor command of an ARMED entry is the SHC's own last one; side A's motor is stopped before side B's.) -/
def HaltedBy (s t : State) (sc : Screen) (reason : HaltReason) (rp : Option Proj) : Prop :=
  let c := s.shc.get sc
  t.shc.get sc =
    { c.setBank c.active c.haltEntries with
      douserA := false, douserB := false, muted := true, motorA := false, motorB := false, countdown := 0,
      strikeFrame := none, state := .halted,
      halt := some ⟨reason, rp, c.haltPoint, c.current, s.countAt sc c.current, s.bck.time, []⟩ } ∧
  KeepsAllBut s t [.events, .cnl, .shc sc, .alc (sc.proj .a), .alc (sc.proj .b)] ∧
  Noted s.cnl t.cnl ∧
  (∃ es, t.events = s.events ++ [.motorStop (sc.proj .a), .motorStop (sc.proj .b)] ++ es ++
    [.post sc .halt c.setup.brk] ∧ (c.holding .runningOut = none → es = [])) ∧
  (∀ side, c.holdingOn .runningOut side = none → t.alc.get (sc.proj side) = s.alc.get (sc.proj side)) ∧
  (∀ side, (c.holdingOn .runningOut side).isSome = true → c.holdingOn .armed side = none →
    (t.alc.get (sc.proj side)).state = .dark)

/-! ## Switch-type inputs (R75, R76) -/

/-- R75, R76: an input keeps at most its last three samples; it is unsettled while it has fewer, and with three its
accepted level is the one at least two of them hold. -/
def State.InputKept (s : State) (i : SwitchInput) : Prop :=
  (s.samples i).length ≤ 3 ∧ ((s.samples i).length < 3 → s.inputLevel i = none) ∧
  ∀ a b c, s.samples i = [a, b, c] → s.inputLevel i = some ((a && b) || (a && c) || (b && c))

/-- An input that has settled and whose pin holds still: a sample of it changes nothing. -/
def State.Steady (s : State) (i : SwitchInput) : Prop :=
  s.inputLevel i = some (s.pins.level i) ∧ s.samples i = List.replicate 3 (s.pins.level i)

/-! ## The walk of a programme (R11, R12) -/

/-- R11: the resolution at which the walk of a bank stands after the entries of `path`, in their order, where
`path` is what it reaches from the resolution `res`; absent where it reaches others. -/
def follow (es : List Entry) : (path : List Nat) → (res : Resolved) → Option Resolved
  | [], res => some res
  | i :: path, .reel j _ => if i = j then follow es path (nextAfter es j) else none
  | i :: path, .interval j _ _ => if i = j then follow es path (nextAfter es j) else none
  | _ :: _, _ => none

/-! ## The staged bank (R5) -/

/-- R5: the notices of the CONFIRMED reels of the staged bank, in order of index. -/
def State.lostConfirmations (s : State) (sc : Screen) : List Notice :=
  let c := s.shc.get sc
  let es := c.bank c.active.other
  (List.range es.length).filterMap fun n =>
    match (entryAt es n).kind with
    | .reel r =>
      if (entryAt es n).state = .confirmed then
        some ⟨s.bck.time, .entry sc c.active.other n (sc.proj r.side) r.title .confirmationLost false
          (s.trm.get (sc.proj r.side)).count none⟩
      else none
    | _ => none

/-! ## Starts and slots (R18, R21, R29, R54) -/

/-- R54: the REEL `r` of entry `i`, the first entry of the active bank, can start a performance. -/
def State.Startable (s : State) (sc : Screen) (i : Nat) (r : Reel) : Prop :=
  s.bsu.fire = none ∧ (s.shc.get sc).first = .reel i r ∧ ((s.shc.get sc).entry i).state = .confirmed ∧
  (s.trm.get (sc.proj r.side)).state = .stopped ∧ (s.alc.get (sc.proj r.side)).state ≠ .failed ∧
  s.trimPasses sc i r .coldStart = true

/-- R21, R29 item 5: why the first entry cannot start a performance, in the order of R21. -/
def State.StartBlocked (s : State) (sc : Screen) (reason : NotReady) : Prop :=
  let c := s.shc.get sc
  (reason = .fireLock ∧ s.bsu.fire.isSome = true) ∨
  (s.bsu.fire = none ∧
    ((reason = .notThreaded ∧ ((∀ i r, c.first ≠ .reel i r) ∨ ∃ i r, c.first = .reel i r ∧
        ((c.entry i).state ≠ .confirmed ∨ (s.trm.get (sc.proj r.side)).state ≠ .stopped))) ∨
      (reason = .lampFailed ∧ ∃ i r, c.first = .reel i r ∧ (c.entry i).state = .confirmed ∧
        (s.trm.get (sc.proj r.side)).state = .stopped ∧ (s.alc.get (sc.proj r.side)).state = .failed) ∨
      (reason = .trimShort ∧ ∃ i r, c.first = .reel i r ∧ (c.entry i).state = .confirmed ∧
        (s.trm.get (sc.proj r.side)).state = .stopped ∧ (s.alc.get (sc.proj r.side)).state ≠ .failed ∧
        s.trimPasses sc i r .coldStart = false ∧ c.setup.policy = .hold)))

/-- R18: slot k of the schedule is left to be taken. -/
def Schedule.Left (x : Schedule) : Prop :=
  (0 < x.tc ∨ x.k = 0) ∧ (x.np = 0 ∨ x.k < x.np) ∧ x.k ≤ 65535 ∧ x.t0 + x.k * x.tc ≤ 4294967295

/-- R18: the schedule record is `x`, or absent where no slot is left and no start wait is open. -/
def Holds (held : Option Schedule) (x : Schedule) : Prop :=
  (x.Left ∨ x.wait.isSome = true → held = some x) ∧ (¬x.Left → x.wait = none → held = none)

/-- R21, R22: a slot of time `slot` has been missed for `reason` in the state `s`, `y` being the schedule without it and
with its miss counted: the notice; the schedule suspended at the limit, running below it, absent with no slot left. -/
def State.Missed (s : State) (sc : Screen) (y : Schedule) (reason : SchedReason) (slot : Nat) (held : Option Schedule)
    (after : Cnl) : Prop :=
  Told s.cnl after ⟨s.bck.time, .schedule sc .missed (some reason) 1 slot⟩ ∧
  (y.Left → (s.shc.get sc).setup.limit ≤ y.miss → held = some { y with suspended := true }) ∧
  (y.Left → y.miss < (s.shc.get sc).setup.limit → ∃ flag, held = some { y with preStrike := flag }) ∧
  (¬y.Left → held = none)

/-- R21: the reason of a missed start. -/
def NotReady.missed : NotReady → SchedReason
  | .fireLock => .fireLock
  | .lampFailed => .lampFailed
  | .trimShort => .trimShort
  | _ => .notThreaded

/-! ## House lights (R134 to R138, R142) -/

/-- R134: the level a request gives a channel. -/
def LightRequest.level (q : LightRequest) : Channel → Nat
  | .house => q.house | .aisle => q.aisle | .stage => q.stage

/-- R142: every channel has begun a fade to the request `q` from where it stood. -/
def FadesTo (h k : Hlc) (q : LightRequest) : Prop :=
  ∀ ch, k.channel ch = { h.channel ch with fade :=
    { fine := if q.fade = 0 then q.level ch * 256 else (h.channel ch).fade.fine, start := (h.channel ch).fade.fine,
      target := q.level ch * 256, ticks := 2 * q.fade, time := q.fade } }

/-- R136: no channel has been changed. -/
def KeepsChannels (h k : Hlc) : Prop := ∀ ch, k.channel ch = h.channel ch

/-- R134 to R138: `t` is `s` after rank `r` of the source table of auditorium `sc` was written (`x` a request) or
released (`x` absent): the table, the fades of R136's table, and the LIGHTS notice of a change of winner. -/
structure RankChanged (s t : State) (sc : Screen) (r : Rank) (x : Option LightRequest) : Prop where
  frame : KeepsAllBut s t [.cnl, .hlc sc]
  written : (t.hlc.get sc).rank r = x
  others : ∀ q, q ≠ r → (t.hlc.get sc).rank q = (s.hlc.get sc).rank q
  stored : (t.hlc.get sc).presets = (s.hlc.get sc).presets ∧ (t.hlc.get sc).floor = (s.hlc.get sc).floor
  wins : ∀ q, x = some q → (t.hlc.get sc).winner = some r → FadesTo (s.hlc.get sc) (t.hlc.get sc) q
  loses : x.isSome = true → (t.hlc.get sc).winner ≠ some r → KeepsChannels (s.hlc.get sc) (t.hlc.get sc)
  hands : ∀ r' q, x = none → (s.hlc.get sc).winner = some r → (t.hlc.get sc).winner = some r' →
    (t.hlc.get sc).rank r' = some q → FadesTo (s.hlc.get sc) (t.hlc.get sc) q
  held : x = none → (s.hlc.get sc).winner = some r → (t.hlc.get sc).winner = none → ∀ ch,
    let c := (s.hlc.get sc).channel ch
    (t.hlc.get sc).channel ch = { c with fade := ⟨c.fade.fine, c.fade.fine, c.fade.fine, 0, 0⟩ }
  lower : x = none → (s.hlc.get sc).winner ≠ some r → KeepsChannels (s.hlc.get sc) (t.hlc.get sc)
  unsaid : (t.hlc.get sc).winner = (s.hlc.get sc).winner → t.cnl = s.cnl
  said : ∀ r' q, (t.hlc.get sc).winner = some r' → (s.hlc.get sc).winner ≠ some r' →
    (t.hlc.get sc).rank r' = some q → t.cnl = s.cnl.raise
      ⟨s.bck.time, .lights sc (s.hlc.get sc).winner (some r') q.house q.aisle q.stage q.fade (some q.origin)⟩
  none_ : (t.hlc.get sc).winner = none → (s.hlc.get sc).winner ≠ none → t.cnl = s.cnl.raise
    ⟨s.bck.time, .lights sc (s.hlc.get sc).winner none ((t.hlc.get sc).output .house) ((t.hlc.get sc).output .aisle)
      ((t.hlc.get sc).output .stage) 0 none⟩

/-! ## Fire (R163, R164) -/

/-- R163, R164: `t` is `s` after the fire state latched for `reason`: the record; every shutter that was up DROPPED
with reason FIRE, every veto set; the motor stops, extinguishes and fire events handed out in that order; full levels
in every FIRE rank; and the SHUTTER notices before the SAFETY notice, before the notices of the house lights. (That several of one kind
stand in the order of their numbers is the model's choice, log entries 6 and 33.) -/
structure FireLatched (s t : State) (reason : FireReason) (linkProj : Option Proj) : Prop where
  frame : KeepsAllBut s t [.events, .cnl, .bsu, .hlc .s1, .hlc .s2, .hlc .s3, .hlc .s4]
  record : t.bsu.fire = some
    ⟨reason, decide (reason = .input), decide (reason = .portLink), decide (reason = .alarm), s.bck.time, linkProj⟩
  shutters : ∀ p, let x := s.bsu.shutters.get p
    t.bsu.shutters.get p =
      (if x.state = .dropped then x else { x with state := .dropped, reason := .fire, raiseTimer := false })
  vetoes : ∀ p, t.bsu.vetoes.get p = some .fire
  rest : t.bsu = { s.bsu with fire := t.bsu.fire, shutters := t.bsu.shutters, vetoes := t.bsu.vetoes }
  handed : t.events = s.events ++ (Proj.all.map .motorStop ++ Proj.all.map (fun p => .bsuExtinguish p .fire) ++
    Screen.all.map .fireEvent)
  lights : ∀ sc, (t.hlc.get sc).fire = some ⟨255, 255, 255, 0, .alarm⟩ ∧
    (∀ rank, rank ≠ .fire → (t.hlc.get sc).rank rank = (s.hlc.get sc).rank rank) ∧
    ∀ ch, ((t.hlc.get sc).channel ch).fade.fine = 65280 ∧ ((t.hlc.get sc).channel ch).fade.ticks = 0
  told : ∃ lights : List Notice,
    let up := Proj.all.filter fun p => decide ((s.bsu.shutters.get p).state ≠ ShutterState.dropped)
    let dropped : List Notice :=
      up.map fun p => ⟨s.bck.time, .shutter p .dropped (s.bsu.shutters.get p).state (some .fire)⟩
    let latched : Notice := ⟨s.bck.time, .safety .fireLatched true (decide (reason = .input))
      (decide (reason = .portLink)) (decide (reason = .alarm)) (some reason) linkProj s.bsu.estop.isSome s.bsu.proven
      none⟩
    t.cnl = (dropped ++ [latched] ++ lights).foldl Cnl.raise s.cnl

/-! ## The whole part -/

/-- Every block's record is as the conditions above say. -/
structure State.Safe (s : State) : Prop where
  cnl : s.cnl.Bounded
  bsu : s.bsu.Safe
  trm : ∀ p, (s.trm.get p).Legal
  alc : ∀ p, (s.alc.get p).Legal
  halt : ∀ sc, (s.shc.get sc).HaltKept
  banks : ∀ sc, (s.shc.get sc).FullBanks
  inputs : ∀ i, s.InputKept i

end Sys2Proof.Machine
end

