-- ==== Sys2Proof/Certificates/Slice0/Obligations.lean ====
section
/-!
DEFINITION. The statements for the provers, chapter by chapter; each docstring names the rule of spec/ it follows.
-/

open Sys2Proof Sys2Proof.Machine

/-! ## The queue and the events -/

/-- The machine's step: the command at the front of the queue is run on the state with the queue's rest. The model's
choice (log entries 1 and 23): on an empty queue the step takes the oldest event raised and not yet taken, and with no
event either it is the tick of the part's own clocks (IdleTickSamplesTheInputs). -/
def Obligations.StepRunsFrontOfQueue : Prop :=
  (∀ (c : Instr) (rest : List Instr) (s : State), s.pending = c :: rest → step s = exec c { s with pending := rest }) ∧
  (∀ s : State, s.pending = [] →
     (∀ (e : Instr) (rest : List Instr), s.events = e :: rest → step s = exec e s) ∧
     (s.events = [] → step s = .next s.tick))

/-- No command faults, none is refused, and none touches the queue of commands. -/
def Obligations.EveryCommandCompletes : Prop :=
  ∀ (c : Instr) (s : State), ∃ t, exec c s = .next t ∧ t.pending = s.pending

/-! ## Chapter 9: the line -/

/-- R174, R175, R176, R180: what a received character does, by the receiver's state. The last byte of a frame: a frame
whose bytes from LEN through SUM do not add to 0 modulo 256 is answered CHECK ERROR with TAG 0; one that passes enters
the inbound queue or, with four frames there, is answered QUEUE FULL with its own TAG; either answer is given only
while a place of the reply queue is free. -/
def Obligations.ReceiverFollowsItsTable : Prop :=
  (∀ (b : Byte) (s : State),
     (s.cnl.rx = .hunt → b = 0xC7 → exec (.byteReceived b true) s =
       .next { s with cnl := { s.cnl with rx := .inFrame, partialFrame := some ⟨none, []⟩, gapTimer := true } }) ∧
     (s.cnl.rx = .hunt → b ≠ 0xC7 → exec (.byteReceived b true) s = .next s) ∧
     (∀ l, s.cnl.rx = .inFrame → s.cnl.partialFrame = some ⟨none, l⟩ →
       (2 ≤ b.toNat ∧ b.toNat ≤ 58 → exec (.byteReceived b true) s =
         .next { s with cnl := { s.cnl with partialFrame := some ⟨some b, []⟩, gapTimer := true } }) ∧
       (b = 0xC7 → exec (.byteReceived b true) s =
         .next { s with cnl := { s.cnl with partialFrame := some ⟨none, []⟩, gapTimer := true } }) ∧
       (¬(2 ≤ b.toNat ∧ b.toNat ≤ 58) → b ≠ 0xC7 → exec (.byteReceived b true) s =
         .next { s with cnl := { s.cnl with rx := .hunt, partialFrame := none, gapTimer := false } })) ∧
     (∀ len l, s.cnl.rx = .inFrame → s.cnl.partialFrame = some ⟨some len, l⟩ → l.length < len.toNat →
       exec (.byteReceived b true) s =
         .next { s with cnl := { s.cnl with partialFrame := some ⟨some len, l ++ [b]⟩, gapTimer := true } }) ∧
     (s.cnl.rx = .brk → exec (.byteReceived b true) s = .next s) ∧
     (s.cnl.rx = .inFrame → exec (.byteReceived b false) s =
       .next { s with cnl := { s.cnl with rx := .hunt, partialFrame := none, gapTimer := false } }) ∧
     (s.cnl.rx ≠ .inFrame → exec (.byteReceived b false) s = .next s)) ∧
  (∀ (len b : Byte) (l : List Byte) (s : State),
     s.cnl.rx = .inFrame → s.cnl.partialFrame = some ⟨some len, l⟩ → 2 ≤ len.toNat → l.length = len.toNat →
     ∃ t : State, exec (.byteReceived b true) s = .next t ∧ KeepsAllBut s t [.cnl] ∧
       (let sum := (len.toNat + ((l ++ [b]).map (·.toNat)).sum) % 256
        let c := { s.cnl with rx := .hunt, partialFrame := none, gapTimer := false }
        let free := s.cnl.replies.length + s.cnl.reserved < 4
        let answer (tag : Byte) (r : Result) : Cnl := { c with replies := c.replies ++ [⟨0x8F, tag, r, none, []⟩] }
        (sum ≠ 0 → free → t.cnl = answer 0 .checkError) ∧
        (sum ≠ 0 → ¬free → t.cnl = c) ∧
        (∀ kind tag body, l = kind :: tag :: body → sum = 0 →
         (s.cnl.inbound.length < 4 → t.cnl = { c with inbound := c.inbound ++ [⟨kind, tag, body⟩] }) ∧
         (4 ≤ s.cnl.inbound.length → free → t.cnl = answer tag .queueFull) ∧
         (4 ≤ s.cnl.inbound.length → ¬free → t.cnl = c))))

/-- R175, R176, R181 and 10.1 end to end: the bytes the console sends for any frame (MARK, LEN, KIND, TAG, body,
SUM), taken one by one by a receiver in HUNT, put exactly that frame at the tail of the inbound queue and leave the
receiver in HUNT. -/
def Obligations.FrameSentIsFrameReceived : Prop :=
  ∀ (kind tag : Byte) (body : List Byte) (s : State),
    body.length ≤ 56 → s.cnl.rx = .hunt → s.cnl.inbound.length < 4 →
    execAll ((frameBytes kind tag body).map fun b => .byteReceived b true) s =
      .next { s with cnl := { s.cnl with rx := .hunt, partialFrame := none, gapTimer := false,
                                         inbound := s.cnl.inbound ++ [⟨kind, tag, body⟩] } }

/-- R191, 10.4: every request is read back from the KIND, TAG and body that the console sends for it. -/
def Obligations.RequestFramesDecodeToTheirRequests : Prop :=
  ∀ (i : Instr) (kind tag : Byte) (body : List Byte),
    wellFormed i = true → encodeRequest i = some (kind, tag, body) → decodeRequest kind tag body = .request i

/-- R179: taking the oldest frame. It is taken when the reply queue has a free place and reset pending is clear; a
KIND that is no request kind is answered UNKNOWN KIND, a body of a wrong length BAD LENGTH, with the adjusted flag clear
for the six SET kinds and absent for every other (R191); any other frame is handed to its owner with a place reserved
for its reply. -/
def Obligations.TakenFrameGoesToItsOwner : Prop :=
  ∀ (f : Frame) (rest : List Frame) (s : State), s.cnl.inbound = f :: rest →
    (s.cnl.replies.length + s.cnl.reserved < 4 → s.cnl.resetPending = false →
      (∀ i, decodeRequest f.kind f.tag f.body = .request i → exec .takeFrame s =
        .next { s with cnl := { s.cnl with inbound := rest, reserved := s.cnl.reserved + 1 },
                       events := s.events ++ [i] }) ∧
      (decodeRequest f.kind f.tag f.body = .unknownKind → exec .takeFrame s =
        .next { s with cnl := { s.cnl with inbound := rest,
                                           replies := s.cnl.replies ++ [⟨0x8F, f.tag, .unknownKind, none, []⟩] } }) ∧
      (decodeRequest f.kind f.tag f.body = .badLength →
        let set := f.kind = 0x20 ∨ f.kind = 0x21 ∨ f.kind = 0x22 ∨ f.kind = 0x23 ∨ f.kind = 0x3A ∨ f.kind = 0x40
        let answered (adjusted : Option Bool) : State := { s with cnl :=
          { s.cnl with inbound := rest,
                       replies := s.cnl.replies ++ [⟨f.kind + 0x80, f.tag, .badLength, adjusted, []⟩] } }
        (set → exec .takeFrame s = .next (answered (some false))) ∧
        (¬set → exec .takeFrame s = .next (answered none)))) ∧
    (4 ≤ s.cnl.replies.length + s.cnl.reserved ∨ s.cnl.resetPending = true → exec .takeFrame s = .next s)

/-- R174, R181, R182, R187, R188, R189: between frames the serial output is at mark; within one it carries the first
byte not yet sent, a start bit at space, the data bits least significant first and a stop bit at mark (the bit time is
an argument, as the state holds no place within a character, log entry 36), and such a character is read back as its
byte with a stop bit at mark; a free transmitter starts the oldest reply, or with none and quiet off the oldest
notice, the RESTART notice of power-on once the receive line is at mark, and nothing in BREAK; a frame sent leaves its
queue; NOTICES LOST enters the place freed when notices were lost; and when the DONE reply of an accepted BOOTH RESET
has been sent the reset is made in the same event, the straps read as they then stand. (That the RESTART notice of
power-on alone waits for mark, by the pin's level when the frame is to start, and that replies and every other notice
are held back by BREAK alone, is the model's reading, log entry 32.) -/
def Obligations.TransmitterSendsRepliesFirst : Prop :=
  (∀ b : Byte, readCharacter (character b) = some (b, true)) ∧
  ∀ s : State,
    (s.cnl.tx = none → ∀ bit, s.cnl.outputLevel bit = true) ∧
    (∀ (x : Transmission) (b : Byte), s.cnl.tx = some x → (s.cnl.frame x)[x.sent]? = some b →
      s.cnl.outputLevel 0 = false ∧ (∀ k, k < 8 → s.cnl.outputLevel (k + 1) = b.getLsbD k) ∧
      s.cnl.outputLevel 9 = true) ∧
    (s.cnl.tx = none → s.cnl.rx ≠ .brk → s.cnl.replies ≠ [] →
      exec .frameStart s = .next { s with cnl := { s.cnl with tx := some ⟨true, 0⟩ } }) ∧
    (∀ x rest, s.cnl.tx = none → s.cnl.rx ≠ .brk → s.cnl.replies = [] → s.cnl.notices = x :: rest →
      s.cnl.quiet = false →
      (s.pins.lineMark = true ∨ (∀ rate, x.body ≠ .restart .power rate) →
        exec .frameStart s = .next { s with cnl := { s.cnl with tx := some ⟨false, 0⟩ } }) ∧
      (∀ rate, s.pins.lineMark = false → x.body = .restart .power rate → exec .frameStart s = .next s)) ∧
    (s.cnl.tx.isSome = true ∨ s.cnl.rx = .brk ∨
      (s.cnl.replies = [] ∧ (s.cnl.quiet = true ∨ s.cnl.notices = [])) → exec .frameStart s = .next s) ∧
    (∀ n r rest, s.cnl.tx = some ⟨true, n⟩ → s.cnl.replies = r :: rest →
      (s.cnl.resetPending = true ∧ r.kind = 0x93 ∧ r.result = .done → exec .frameSent s =
        exec (.boothResetMade s.pins.straps) s) ∧
      (¬(s.cnl.resetPending = true ∧ r.kind = 0x93 ∧ r.result = .done) → exec .frameSent s =
        .next { s with cnl := { s.cnl with tx := none, replies := rest } })) ∧
    (∀ n x rest, s.cnl.tx = some ⟨false, n⟩ → s.cnl.notices = x :: rest →
      (s.cnl.lost = 0 → exec .frameSent s = .next { s with cnl := { s.cnl with tx := none, notices := rest } }) ∧
      (0 < s.cnl.lost → exec .frameSent s =
        .next { s with cnl := { s.cnl with tx := none, lost := 0,
                                           notices := rest ++ [⟨s.bck.time, .noticesLost s.cnl.lost⟩] } }))

/-- R177, R178, R188: a line break makes a link reset: the partial frame and the inbound queue go, the frame in
transmission is abandoned (a reply is gone; a notice is counted lost, a NOTICES LOST with its own count, and NOTICES
LOST enters the place freed), the receiver is in BREAK, and nothing outside the CNL changes but the level of the line.
Where the abandoned reply is the DONE reply of an accepted BOOTH RESET the reset is made first, and the receiver then
enters BREAK. The line's return to mark ends BREAK; the gap timer discards a partial frame. -/
def Obligations.LineBreakResetsTheLink : Prop :=
  ∀ s : State,
    let line (mark : Bool) : State := { s with pins := { s.pins with lineMark := mark } }
    let resets (r : Reply) : Prop := s.cnl.resetPending = true ∧ r.kind = 0x93 ∧ r.result = .done
    (s.cnl.rx = .brk → exec .lineBreak s = .next (line false)) ∧
    (∀ n r rest, s.cnl.rx ≠ .brk → s.cnl.tx = some ⟨true, n⟩ → s.cnl.replies = r :: rest → resets r →
      ∃ u, exec (.boothResetMade s.pins.straps) (line false) = .next u ∧
        exec .lineBreak s = .next { u with cnl := { u.cnl with rx := .brk } }) ∧
    (s.cnl.rx ≠ .brk → (∀ n r rest, s.cnl.tx = some ⟨true, n⟩ → s.cnl.replies = r :: rest → ¬resets r) →
      ∃ t : State, exec .lineBreak s = .next t ∧
      KeepsAllBut s t [.pins, .cnl] ∧ t.pins = { s.pins with lineMark := false } ∧
      (let c := { s.cnl with rx := .brk, partialFrame := none, gapTimer := false, inbound := [], tx := none }
       (s.cnl.tx = none → t.cnl = c) ∧
       (∀ n r rest, s.cnl.tx = some ⟨true, n⟩ → s.cnl.replies = r :: rest → t.cnl = { c with replies := rest }) ∧
       (∀ n x rest, s.cnl.tx = some ⟨false, n⟩ → s.cnl.notices = x :: rest →
        (∀ k, x.body = .noticesLost k → t.cnl =
          { c with lost := 0, notices := rest ++ [⟨s.bck.time, .noticesLost (min 255 (s.cnl.lost + k + 1))⟩] }) ∧
        ((∀ k, x.body ≠ .noticesLost k) → t.cnl =
          { c with lost := 0, notices := rest ++ [⟨s.bck.time, .noticesLost (min 255 (s.cnl.lost + 1))⟩] })))) ∧
    (s.cnl.rx = .brk → exec .lineReturnsToMark s = .next { line true with cnl := { s.cnl with rx := .hunt } }) ∧
    (s.cnl.rx ≠ .brk → exec .lineReturnsToMark s = .next (line true)) ∧
    (s.cnl.gapTimer = true → exec .gapTimerExpiry s =
      .next { s with cnl := { s.cnl with rx := .hunt, partialFrame := none, gapTimer := false } }) ∧
    (s.cnl.gapTimer = false → exec .gapTimerExpiry s = .next s)

/-- R173, R179, R182: an invariant of every step: no queue of the Console Link holds more than its places. A notice
enters at the tail while fewer than 32 wait and is counted lost otherwise; a reply fills a reserved place; where no
place is reserved for it (no frame brought the request: log entry 2) it takes a free one or is not kept. -/
def Obligations.QueuesStayWithinTheirPlaces : Prop :=
  (∀ s t : State, s.cnl.Bounded → step s = .next t → t.cnl.Bounded) ∧
  (∀ (c : Cnl) (n : Notice) (r : Reply),
     (c.notices.length < 32 → c.raise n = { c with notices := c.notices ++ [n] }) ∧
     (32 ≤ c.notices.length → c.raise n = { c with lost := min 255 (c.lost + 1) }) ∧
     (0 < c.reserved → c.fill r = { c with reserved := c.reserved - 1, replies := c.replies ++ [r] }) ∧
     (c.reserved = 0 → c.replies.length < 4 → c.fill r = { c with replies := c.replies ++ [r] }) ∧
     (c.reserved = 0 → 4 ≤ c.replies.length → c.fill r = c))

/-- R183, R184, R185, R186: QUIET and IDENTIFY. A second raises the booth time by 1, not above its greatest value, and
raises one booth second event, carrying it, to each of the four SHCs in the order of the screens. SET CLOCK sets the
time given and the flag, hands the old and the new time to each SHC and replies DONE with the old time; READ CLOCK
replies with time and flag and changes no state but the reply queue. (The order of the four screens is log entry
33.) -/
def Obligations.LinkAndClockRequests : Prop :=
  (∀ (tag setting : Byte) (s : State),
     (∃ t, exec (.quiet tag setting) s = .next t ∧ KeepsAllBut s t [.events, .cnl] ∧
       t.events = s.events.erase (.quiet tag setting) ∧
       (setting ≠ 0 → setting ≠ 1 → t.cnl = s.cnl.fill ⟨0x94, tag, .badField, none, []⟩) ∧
       (∀ on : Bool, setting = (if on then 1 else 0) →
         (s.cnl.quiet = on → t.cnl = s.cnl.fill ⟨0x94, tag, .already, none, []⟩) ∧
         (s.cnl.quiet ≠ on → t.cnl = { s.cnl with quiet := on }.fill ⟨0x94, tag, .done, none, []⟩))) ∧
     exec (.identify tag) s = .next { s with
       events := s.events.erase (.identify tag),
       cnl := s.cnl.fill ⟨0x90, tag, .done, none,
         [0x4D, 0xB4, 3, BitVec.ofNat 8 s.cnl.rate.code, if s.bck.isSet then 1 else 0]⟩ }) ∧
  (∀ s : State, ∃ t, exec .secondTimerExpiry s = .next t ∧ KeepsAllBut s t [.events, .bck] ∧
     t.bck = { s.bck with time := if s.bck.time < 4294967295 then s.bck.time + 1 else 4294967295 } ∧
     t.events = s.events ++ [.boothSecondEvent .s1 t.bck.time, .boothSecondEvent .s2 t.bck.time,
       .boothSecondEvent .s3 t.bck.time, .boothSecondEvent .s4 t.bck.time]) ∧
  (∀ (tag : Byte) (time : Word) (s : State),
     (∃ t, exec (.setClock tag time) s = .next t ∧ KeepsAllBut s t [.events, .cnl, .bck] ∧
       t.bck = ⟨time.toNat, true, true⟩ ∧
       t.events = s.events.erase (.setClock tag time) ++ [.clockSetEvent .s1 s.bck.time time.toNat,
         .clockSetEvent .s2 s.bck.time time.toNat, .clockSetEvent .s3 s.bck.time time.toNat,
         .clockSetEvent .s4 s.bck.time time.toNat] ∧
       t.cnl = s.cnl.fill ⟨0x91, tag, .done, none, bytes4 s.bck.time⟩) ∧
     exec (.readClock tag) s = .next { s with
       events := s.events.erase (.readClock tag),
       cnl := s.cnl.fill ⟨0x92, tag, .done, none, bytes4 s.bck.time ++ [if s.bck.isSet then 1 else 0]⟩ })

/-- R1, R18, R25 to R27, R52, R76, R77, R93, R95, R96, R113, R116, R126, R131, R132, R134, R145, R147, R155, R160, R163,
R167, R169, R173, R174, R185, R187: power-on, from any state, leaves every block at the reset values of its chapter's
table, written out here, with the rate of the straps, the booth time 0 and one RESTART notice with cause POWER; the line
rate of the straps. (The fields that are the model's own are those of log entries 7 and 25; that the
other pins stand as they did is log entry 23.) -/
def Obligations.PowerOnResetsEveryBlock : Prop :=
  (∀ (straps : Straps) (s : State), ∃ t, exec (.powerOn straps) s = .next t ∧ t.pending = s.pending ∧ t.events = [] ∧
     t.pins = { s.pins with straps := straps } ∧
     t.cnl = { rate := LineRate.ofStraps straps, rx := .hunt, partialFrame := none,
               gapTimer := false, inbound := [], replies := [], reserved := 0,
               notices := [⟨0, .restart .power (LineRate.ofStraps straps)⟩], tx := none, quiet := false, lost := 0,
               resetPending := false } ∧
     t.bck = ⟨0, false, true⟩ ∧
     t.mpt = { locked := false, previous := none, run := [], lastInterval := none, halfPeriod := 0,
               silenceTimer := false } ∧
     t.bsu.fire = none ∧ t.bsu.estop = none ∧ t.bsu.proven = false ∧ t.bsu.provingTimer = false ∧
     t.bsu.lossTimer = false ∧
     (∀ i, t.inputLevel i = none ∧ t.samples i = []) ∧
     (∀ p, t.bsu.shutters.get p =
         { state := .dropped, reason := .power, raiseTimer := false, up := none, upSamples := [] } ∧
       t.bsu.vetoes.get p = some .power) ∧
     (∀ sc, t.shc.get sc =
         { bank0 := List.replicate 24 ⟨.empty, .empty, false⟩, bank1 := List.replicate 24 ⟨.empty, .empty, false⟩,
           active := .b0, schedule := none, switch := none, state := .idle, current := 0, prep := .start,
           countdown := 0, preStrike := false, douserA := false, douserB := false, sound := .a, muted := true,
           perfCount := 0, halt := none, progress := .none, strikeFrame := none, trimHold := none,
           motorA := false, motorB := false,
           setup := { f := 24, l0 := 192, cueMode := .sensed, w := 24, allowance := 240, policy := .hold,
                      grace := 300, limit := 4, preShow := 0, brk := 7, fin := 6 } }) ∧
     (∀ sc, let channel : ChannelRec := ⟨⟨65280, 65280, 65280, 0, 0⟩, none, false, 0⟩
       t.hlc.get sc =
         { presets := List.replicate 8 ⟨255, 255, 255, 30⟩, fire := none, halt := none, console := none,
           show_ := none, house := channel, aisle := channel, stage := channel, floor := 64 }) ∧
     (∀ p, t.trm.get p =
         { motor := false, state := .stopped, count := 0, runLength := none, lastPeriod := none, lastPulse := none,
           goodRun := 0, runUpTimer := false, stallTimer := false, window := none, stray := 0,
           strayOverflow := false, loopClosed := none, cueMark := none, loopSamples := [], cueSamples := [] }) ∧
     (∀ p, t.alc.get p =
         { state := .dark, lastCause := .none, withheld := none, attempts := 0, limitInForce := 3,
           phase := .attempt, goodRun := 0, inBand := 0, lowRun := 0, acc := 0, vm := 0, im := 0, trim := 0,
           consumed := 0, strikerTimer := false, attemptTimer := false, coolOffTimer := false, steps := 0,
           setup := { vset := 350, d := 5, kf := 32, band := 20, b := 12, inom := 70, imin := 25, lead := 60,
                      limit := 3, margin := 120, auto := true },
           service := none })) ∧
  (LineRate.ofStraps ⟨false, false⟩ = .baud1200 ∧ LineRate.ofStraps ⟨true, false⟩ = .baud2400 ∧
   LineRate.ofStraps ⟨false, true⟩ = .baud4800 ∧ LineRate.ofStraps ⟨true, true⟩ = .baud9600)

/-- R188, R189: BOOTH RESET is refused BAD FIELD, refused BUSY, or accepted, and accepted it changes nothing until
the reset is made; the reset puts every block where power-on puts it (PowerOnResetsEveryBlock), but keeps the Booth
Clock, and discards every event and queue. -/
def Obligations.BoothResetKeepsTheClock : Prop :=
  ∀ (tag force : Byte) (straps : Straps) (s : State),
    (∃ t, exec (.boothReset tag force) s = .next t ∧ KeepsAllBut s t [.events, .cnl] ∧
      t.events = s.events.erase (.boothReset tag force) ∧
      (force ≠ 0 → force ≠ 1 → t.cnl = s.cnl.fill ⟨0x93, tag, .badField, none, []⟩) ∧
      (force = 0 → (∃ sc, (s.shc.get sc).state ≠ .idle) → t.cnl = s.cnl.fill ⟨0x93, tag, .busy, none, []⟩) ∧
      (force = 1 ∨ (force = 0 ∧ ∀ sc, (s.shc.get sc).state = .idle) →
        t.cnl = { s.cnl with resetPending := true }.fill ⟨0x93, tag, .done, none, []⟩)) ∧
    (∃ t u, exec (.boothResetMade straps) s = .next t ∧ exec (.powerOn straps) s = .next u ∧
      KeepsAllBut u t [.cnl, .bck] ∧ t.pending = s.pending ∧ t.events = [] ∧ t.bck = s.bck ∧
      t.cnl = { rate := LineRate.ofStraps straps, rx := .hunt, partialFrame := none,
                gapTimer := false, inbound := [], replies := [], reserved := 0,
                notices := [⟨s.bck.time, .restart .boothReset (LineRate.ofStraps straps)⟩], tx := none,
                quiet := false, lost := 0, resetPending := false })

/-! ## Chapter 10: replies and notices -/

/-- R191, R193, R194, R94, 10.4.3, 10.5: the body of every notice has the length the table gives its code and begins
with the booth time and then the first field of its code. The body of every reply is the result code, then the reason
of a NOT READY, then the adjusted flag where there is one, then the data. A read in parts of a named object replies
DONE with the part number and the part, whose length is the table's and whose first fields are written out here, or NO
SUCH for an object or a part outside its numbering, and changes nothing else. READ PROJECTOR replies the 24 bytes of its
layout, whose first fields are written out here, and then clears the stray-cue counter and the overflow flag: the one
effect of a read on state. -/
def Obligations.RepliesAndReadsFollowTheirLayouts : Prop :=
  (∀ n : Notice, n.bodyBytes.length =
     match n.body with
     | .restart .. => 6
     | .noticesLost .. => 5
     | .screenState .. => 18
     | .cue .. => 13
     | .changeover .. => 22
     | .entry .. => 15
     | .lamp .. => 16
     | .trimLow .. => 23
     | .shutter .. => 8
     | .safety .. => 14
     | .mains .. => 10
     | .switch .. => 16
     | .schedule .. => 12
     | .performanceEnd .. => 7
     | .lights .. => 13
     | .programmeFault .. => 9) ∧
  (∀ n : Notice,
     n.bodyBytes.take 4 = [BitVec.ofNat 8 (n.time / 16777216), BitVec.ofNat 8 (n.time / 65536),
       BitVec.ofNat 8 (n.time / 256), BitVec.ofNat 8 n.time] ∧
     (n.bodyBytes.drop 4).head? = some (match n.body with
       | .restart cause _ => (match cause with | .power => 0 | .boothReset => 1)
       | .noticesLost count => BitVec.ofNat 8 count
       | .lamp p .. | .shutter p .. => BitVec.ofNat 8 p.num
       | .safety event .. => (match event with
           | .fireLatched => 1 | .fireReasonAdded => 2 | .fireCleared => 3 | .estopLatched => 4
           | .estopCleared => 5 | .exhaustProven => 6 | .exhaustLost => 7)
       | .mains locked .. => if locked then 1 else 0
       | .screenState sc .. | .cue sc .. | .changeover sc .. | .entry sc .. | .trimLow sc .. | .switch sc ..
       | .schedule sc .. | .performanceEnd sc .. | .lights sc .. | .programmeFault sc .. => BitVec.ofNat 8 sc.num)) ∧
  (∀ r : Reply,
     let adjusted : List Byte := match r.adjusted with | some true => [1] | some false => [0] | none => []
     (∀ x, r.result = .notReady x → r.body = [0x11, BitVec.ofNat 8 x.code] ++ adjusted ++ r.data) ∧
     ((∀ x, r.result ≠ .notReady x) → r.body = [r.result.code] ++ adjusted ++ r.data) ∧
     r.bytes = frameBytes r.kind r.tag r.body) ∧
  (∀ (tag obj part : Byte) (s : State),
     let reply (i : Instr) (kind : Byte) (r : Result) (data : List Byte) : State :=
       { s with events := s.events.erase i, cnl := s.cnl.fill ⟨kind, tag, r, none, data⟩ }
     (∀ sc : Screen, obj.toNat = sc.num →
       (∀ n, part.toNat = n → n ≤ 4 → ∃ data, screenData s sc n = some data ∧
         data.length + 2 = [22, 22, 16, 34, 16].getD n 0 ∧
         (let c := s.shc.get sc
          (n = 0 → data.take 5 = [BitVec.ofNat 8 c.state.code, BitVec.ofNat 8 c.prep.code, BitVec.ofNat 8 c.current,
            BitVec.ofNat 8 (c.countdown / 256), BitVec.ofNat 8 c.countdown]) ∧
          (n = 1 → data.take 2 = match c.halt with | some h => [1, BitVec.ofNat 8 h.first.code] | none => [0, 0]) ∧
          (n = 2 → data.take 3 =
            [BitVec.ofNat 8 c.setup.f, BitVec.ofNat 8 (c.setup.l0 / 256), BitVec.ofNat 8 c.setup.l0]) ∧
          (n = 3 → data.take 5 = match c.schedule with | some y => 1 :: bytes4 y.t0 | none => [0, 0, 0, 0, 0]) ∧
          (n = 4 → data.take 2 = [if c.douserA then 1 else 0,
            if (s.bsu.vetoes.get (sc.proj .a)).isNone then 1 else 0])) ∧
         exec (.readScreen tag obj part) s =
           .next (reply (.readScreen tag obj part) 0xD0 .done (part :: data))) ∧
       (4 < part.toNat → exec (.readScreen tag obj part) s =
         .next (reply (.readScreen tag obj part) 0xD0 .noSuch [])) ∧
       (∀ n, part.toNat = n → n ≤ 2 → ∃ data, auditoriumData s sc n = some data ∧
         data.length + 2 = [35, 42, 42].getD n 0 ∧
         (let h := s.hlc.get sc
          (n = 0 → data.take 1 = [BitVec.ofNat 8 (rankCode h.winner)]) ∧
          (n = 1 → data.take 2 = [BitVec.ofNat 8 (h.house.fade.fine / 256), BitVec.ofNat 8 h.house.fade.fine]) ∧
          (n = 2 → ∀ x, h.presets[0]? = some x →
            data.take 3 = [BitVec.ofNat 8 x.house, BitVec.ofNat 8 x.aisle, BitVec.ofNat 8 x.stage])) ∧
         exec (.readAuditorium tag obj part) s =
           .next (reply (.readAuditorium tag obj part) 0xD3 .done (part :: data))) ∧
       (2 < part.toNat → exec (.readAuditorium tag obj part) s =
         .next (reply (.readAuditorium tag obj part) 0xD3 .noSuch []))) ∧
     (¬(1 ≤ obj.toNat ∧ obj.toNat ≤ 4) →
       exec (.readScreen tag obj part) s = .next (reply (.readScreen tag obj part) 0xD0 .noSuch []) ∧
       exec (.readAuditorium tag obj part) s = .next (reply (.readAuditorium tag obj part) 0xD3 .noSuch [])) ∧
     (∀ p : Proj, obj.toNat = p.num →
       (∀ n, part.toNat = n → n ≤ 1 → ∃ data, lampData s p n = some data ∧ data.length + 2 = [30, 26].getD n 0 ∧
         (let a := s.alc.get p
          (n = 0 → data.take 2 = [BitVec.ofNat 8 a.state.code, BitVec.ofNat 8 a.lastCause.code]) ∧
          (n = 1 → data.take 3 =
            [BitVec.ofNat 8 (a.setup.vset / 256), BitVec.ofNat 8 a.setup.vset, BitVec.ofNat 8 a.setup.d])) ∧
         exec (.readLamp tag obj part) s =
           .next (reply (.readLamp tag obj part) 0xD2 .done (part :: data))) ∧
       (1 < part.toNat → exec (.readLamp tag obj part) s = .next (reply (.readLamp tag obj part) 0xD2 .noSuch []))) ∧
     (¬(1 ≤ obj.toNat ∧ obj.toNat ≤ 8) →
       exec (.readLamp tag obj part) s = .next (reply (.readLamp tag obj part) 0xD2 .noSuch [])) ∧
     (∀ n, part.toNat = n → n ≤ 1 → ∃ data, safetyData s n = some data ∧ data.length + 2 = [24, 42].getD n 0 ∧
       (n = 0 → data.take 2 = match s.bsu.fire with | some r => [1, BitVec.ofNat 8 r.first.code] | none => [0, 0]) ∧
       (n = 1 → data.take 2 = [BitVec.ofNat 8 (s.bsu.shutters.get .p1).state.code,
         BitVec.ofNat 8 (s.bsu.shutters.get .p1).reason.code]) ∧
       exec (.readSafety tag part) s = .next (reply (.readSafety tag part) 0xD4 .done (part :: data))) ∧
     (1 < part.toNat → exec (.readSafety tag part) s = .next (reply (.readSafety tag part) 0xD4 .noSuch []))) ∧
  (∀ (tag proj : Byte) (s : State),
     (∀ p : Proj, proj.toNat = p.num → ∃ data : List Byte, data.length + 1 = 25 ∧
       data.take 6 = [if (s.trm.get p).motor then 1 else 0, BitVec.ofNat 8 (s.trm.get p).state.code,
         BitVec.ofNat 8 ((s.trm.get p).count / 256), BitVec.ofNat 8 (s.trm.get p).count,
         BitVec.ofNat 8 ((s.trm.get p).runLength.getD 0 / 256), BitVec.ofNat 8 ((s.trm.get p).runLength.getD 0)] ∧
       (data.drop 17).take 2 = [BitVec.ofNat 8 (s.trm.get p).stray, if (s.trm.get p).strayOverflow then 1 else 0] ∧
       exec (.readProjector tag proj) s = .next { s with
         events := s.events.erase (.readProjector tag proj)
         trm := s.trm.set p { s.trm.get p with stray := 0, strayOverflow := false }
         cnl := s.cnl.fill ⟨0xD1, tag, .done, none, data⟩ }) ∧
     (¬(1 ≤ proj.toNat ∧ proj.toNat ≤ 8) → exec (.readProjector tag proj) s = .next { s with
       events := s.events.erase (.readProjector tag proj), cnl := s.cnl.fill ⟨0xD1, tag, .noSuch, none, []⟩ }))

/-! ## Chapter 1: programmes -/

/-- R3, R4, R5, R191: WRITE ENTRY. Its refusals in their order leave the entry as it was; accepted it replaces the
kind, the fields and the state of one entry of the staged bank, and a CONFIRMED reel written over is reported. CLEAR
STAGED empties the staged bank and reports each CONFIRMED reel that is lost, in order of index. -/
def Obligations.WriteEntryAndClearStaged : Prop :=
  (∀ (tag screen index kind : Byte) (area : List Byte) (s : State),
     let i := Instr.writeEntry tag screen index kind area
     let reply (r : Result) : State :=
       { s with events := s.events.erase i, cnl := s.cnl.fill ⟨0xA8, tag, r, none, []⟩ }
     (¬(1 ≤ screen.toNat ∧ screen.toNat ≤ 4) ∨ 24 ≤ index.toNat → exec i s = .next (reply .noSuch)) ∧
     (∀ sc : Screen, screen.toNat = sc.num → index.toNat < 24 →
       let c := s.shc.get sc
       ((s.shc.get sc).switch.isSome = true → exec i s = .next (reply .pending)) ∧
       (c.switch = none → kindOfArea kind.toNat area = none → exec i s = .next (reply .badField)) ∧
       (∀ k : EntryKind, c.switch = none → kindOfArea kind.toNat area = some k →
         ∃ t, exec i s = .next t ∧ KeepsAllBut s t [.events, .cnl, .shc sc] ∧
           t.events = s.events.erase i ∧
           t.shc.get sc = c.setBank c.active.other ((c.bank c.active.other).set index.toNat
             ⟨k, if k = .empty then .empty else .loaded, false⟩) ∧
           (∀ r : Reel, (entryAt (c.bank c.active.other) index.toNat).kind = .reel r →
             (entryAt (c.bank c.active.other) index.toNat).state = .confirmed →
             t.cnl = (s.cnl.raise ⟨s.bck.time, .entry sc c.active.other index.toNat (sc.proj r.side) r.title
               .confirmationLost false (s.trm.get (sc.proj r.side)).count none⟩).fill ⟨0xA8, tag, .done, none, []⟩) ∧
           ((entryAt (c.bank c.active.other) index.toNat).state ≠ .confirmed →
             t.cnl = s.cnl.fill ⟨0xA8, tag, .done, none, []⟩)))) ∧
  (∀ (tag screen : Byte) (s : State),
     let i := Instr.clearStaged tag screen
     let reply (r : Result) : State :=
       { s with events := s.events.erase i, cnl := s.cnl.fill ⟨0xA9, tag, r, none, []⟩ }
     (¬(1 ≤ screen.toNat ∧ screen.toNat ≤ 4) → exec i s = .next (reply .noSuch)) ∧
     (∀ sc : Screen, screen.toNat = sc.num →
       let c := s.shc.get sc
       (c.switch.isSome = true → exec i s = .next (reply .pending)) ∧
       (c.switch = none → exec i s = .next { s with
         events := s.events.erase i
         shc := s.shc.set sc (c.setBank c.active.other (List.replicate 24 ⟨.empty, .empty, false⟩))
         cnl := ((s.lostConfirmations sc).foldl Cnl.raise s.cnl).fill ⟨0xA9, tag, .done, none, []⟩ })))

/-- R2, R4, R6, R191, R192: the field area holds every entry of R2's ranges: 16 bytes that read back as that entry;
and a field area that is accepted holds an entry of those ranges. READ ENTRY replies with the entry's kind, state and
short flag, the role of the bank, whether a switch is pending, and the field area; it changes no state. -/
def Obligations.EntriesAreWrittenAndReadBack : Prop :=
  ((∀ k : EntryKind, k.Ranged → (areaOf k).length = 16 ∧ kindOfArea k.code (areaOf k) = some k) ∧
   (∀ (code : Nat) (area : List Byte) (k : EntryKind), kindOfArea code area = some k → k.Ranged ∧ k.code = code)) ∧
  (∀ (tag screen bank index : Byte) (s : State),
     let i := Instr.readEntry tag screen bank index
     let reply (r : Result) (data : List Byte) : State :=
       { s with events := s.events.erase i, cnl := s.cnl.fill ⟨0xAA, tag, r, none, data⟩ }
     (¬(1 ≤ screen.toNat ∧ screen.toNat ≤ 4) ∨ 2 ≤ bank.toNat ∨ 24 ≤ index.toNat →
       exec i s = .next (reply .noSuch [])) ∧
     (∀ (sc : Screen) (b : BankId), screen.toNat = sc.num → bank.toNat = b.code → index.toNat < 24 →
       let c := s.shc.get sc
       let e := entryAt (c.bank b) index.toNat
       exec i s = .next (reply .done
         ([BitVec.ofNat 8 e.kind.code, BitVec.ofNat 8 e.state.code, if e.short then 1 else 0,
           if b = c.active then 0 else 1, if c.switch.isSome then 1 else 0] ++ areaOf e.kind)) ∧
       (e.kind = .empty → areaOf e.kind = List.replicate 16 0)))

/-- R9: resolution from an index: a REEL, an INTERVAL or END is the result; an EMPTY entry is a fault; a LINK is
followed, at most two of them, a LINK to itself being SELF LINK and a third LINK being LINK CHAIN; and the next entry
after index i is resolution from i + 1, none after 23. (A third LINK that targets itself is log entry 9's case and is
left out here.) -/
def Obligations.LinksAreFollowedTwice : Prop :=
  ∀ (es : List Entry) (p : Nat),
    (∀ r, (entryAt es p).kind = .reel r → resolve es p = .reel p r) ∧
    (∀ d q, (entryAt es p).kind = .interval d q → resolve es p = .interval p d q) ∧
    ((entryAt es p).kind = .finish → resolve es p = .finish) ∧
    ((entryAt es p).kind = .empty → resolve es p = .fault p .emptyEntry) ∧
    ((entryAt es p).kind = .link p → resolve es p = .fault p .selfLink) ∧
    (∀ a, (entryAt es p).kind = .link a → a ≠ p →
      ((∀ b, (entryAt es a).kind ≠ .link b) → resolve es p = resolve es a) ∧
      ((entryAt es a).kind = .link a → resolve es p = .fault a .selfLink) ∧
      (∀ b, (entryAt es a).kind = .link b → b ≠ a →
        ((∀ d, (entryAt es b).kind ≠ .link d) → resolve es p = resolve es b) ∧
        (∀ d, (entryAt es b).kind = .link d → d ≠ b → resolve es p = .fault b .linkChain))) ∧
    (p < 23 → nextAfter es p = resolve es (p + 1)) ∧ (23 ≤ p → nextAfter es p = .finish)

/-- R11, R12, R13: SWITCH PROGRAMME. The checks in their order; the base time is used as given when it is not past,
and otherwise advanced by the least number of cycles, at most 255, that brings it to the present. The walk of the
staged bank that the checks read: from a first entry that resolves to a REEL along the entries it reaches, it fails at
a programme fault, has the total of their seconds at END or none, and is unbounded at an entry already reached; a first
entry that resolves to anything else fails it. -/
def Obligations.SwitchProgrammeChecksAndAdvances : Prop :=
  (∀ (es : List Entry) (f : Nat), es.length = 24 →
     ((∀ i r, resolve es 0 ≠ .reel i r) → programmeWalk es f = .fault) ∧
     (∀ (j : Nat) (q : Reel) (path : List Nat) (last : Resolved), resolve es 0 = .reel j q → path ≠ [] → path.Nodup →
       follow es path (resolve es 0) = some last →
       (∀ i why, last = .fault i why → programmeWalk es f = .fault) ∧
       (last = .finish →
         programmeWalk es f = .total (path.map fun i => (entryAt es i).kind.seconds f).sum) ∧
       (∀ i r, last = .reel i r → i ∈ path → programmeWalk es f = .unbounded) ∧
       (∀ i d p, last = .interval i d p → i ∈ path → programmeWalk es f = .unbounded))) ∧
  (∀ (tag screen : Byte) (t0 tc : Word) (np : Half) (s : State),
    let i := Instr.switchProgramme tag screen t0 tc np
    let reply (r : Result) : State :=
      { s with events := s.events.erase i, cnl := s.cnl.fill ⟨0xAB, tag, r, none, []⟩ }
    (¬(1 ≤ screen.toNat ∧ screen.toNat ≤ 4) → exec i s = .next (reply .noSuch)) ∧
    (∀ sc : Screen, screen.toNat = sc.num →
      let c := s.shc.get sc
      let w := programmeWalk (c.bank c.active.other) c.setup.f
      let now := s.bck.time
      let accepted (n base : Nat) : State := { s with
        events := s.events.erase i
        shc := s.shc.set sc { c with switch := some ⟨base, tc.toNat, np.toNat⟩ }
        cnl := s.cnl.fill ⟨0xAB, tag, .accepted, none, BitVec.ofNat 8 n :: bytes4 base⟩ }
      (86400 < tc.toNat → exec i s = .next (reply .badField)) ∧
      (tc.toNat ≤ 86400 →
        (s.bck.isSet = false → exec i s = .next (reply (.notReady .clock))) ∧
        (s.bck.isSet = true → c.switch.isSome = true → exec i s = .next (reply .pending)) ∧
        (s.bck.isSet = true → c.switch = none →
          (w = .fault → exec i s = .next (reply .badProgramme)) ∧
          (w = .unbounded → 0 < tc.toNat → exec i s = .next (reply .cycleShort)) ∧
          (∀ sum, w = .total sum → 0 < tc.toNat → tc.toNat < sum → exec i s = .next (reply .cycleShort)) ∧
          ((w = .unbounded ∧ tc.toNat = 0) ∨ (∃ sum, w = .total sum ∧ (tc.toNat = 0 ∨ sum ≤ tc.toNat)) →
            (now ≤ t0.toNat → exec i s = .next (accepted 0 t0.toNat)) ∧
            (t0.toNat < now → tc.toNat = 0 → exec i s = .next (reply .baseError)) ∧
            (t0.toNat < now → 0 < tc.toNat →
              let n := (now - t0.toNat + tc.toNat - 1) / tc.toNat
              let base := t0.toNat + n * tc.toNat
              (n ≤ 255 → base ≤ 4294967295 → exec i s = .next (accepted n base)) ∧
              (255 < n ∨ 4294967295 < base → exec i s = .next (reply .baseError))))))))

/-- R17: CANCEL SWITCH removes the pending-switch record, which ends the freeze, with a SWITCH notice of outcome
CANCELLED and the reply DONE; the bank and its entries stay as they are. With no switch pending, or a screen outside
1 to 4, it is refused NO SUCH. -/
def Obligations.CancelSwitchRemovesThePendingSwitch : Prop :=
  ∀ (tag screen : Byte) (s : State),
    let i := Instr.cancelSwitch tag screen
    let refused : State :=
      { s with events := s.events.erase i, cnl := s.cnl.fill ⟨0xAC, tag, .noSuch, none, []⟩ }
    (¬(1 ≤ screen.toNat ∧ screen.toNat ≤ 4) → exec i s = .next refused) ∧
    (∀ sc : Screen, screen.toNat = sc.num →
      ((s.shc.get sc).switch = none → exec i s = .next refused) ∧
      (∀ w, (s.shc.get sc).switch = some w → exec i s = .next { s with
        events := s.events.erase i
        shc := s.shc.set sc { s.shc.get sc with switch := none }
        cnl := (s.cnl.raise ⟨s.bck.time, .switch sc false w.t0 w.tc w.np⟩).fill ⟨0xAC, tag, .done, none, []⟩ }))

/-- R7, R3: a CONFIRM REEL keeps threading exclusivity: when at most one entry of each projector is threaded, over both
banks, it is so after any confirmation. -/
def Obligations.ConfirmKeepsThreadingExclusive : Prop :=
  ∀ (tag screen bank index confirm : Byte) (sc : Screen) (side : Side) (s : State),
    ((s.shc.get sc).threadedOn side).length ≤ 1 →
    ∃ t, exec (.confirmReel tag screen bank index confirm) s = .next t ∧
      ((t.shc.get sc).threadedOn side).length ≤ 1

/-- R7, R190, R8: CONFIRM REEL by the entry: NO SUCH, BAD FIELD for an entry that is no REEL or a confirm byte that is
neither 0 nor 1, ALREADY, BUSY, or DONE; on a screen where no evaluation is made (IDLE, PREPARING, ENDING, HALTED, or
the staged bank) the entry becomes CONFIRMED, any other CONFIRMED reel of its projector LOADED, and nothing else
changes but the notices and the reply. The withdrawal of a confirmation, by the entry's state, an ARMED one by the motor
command that its projector's TRM holds (R77). -/
def Obligations.ConfirmationsAreGivenAndWithdrawn : Prop :=
  (∀ (tag screen bank index confirm : Byte) (s : State),
     let x := Instr.confirmReel tag screen bank index confirm
     let reply (r : Result) : State :=
       { s with events := s.events.erase x, cnl := s.cnl.fill ⟨0xAD, tag, r, none, []⟩ }
     (¬(1 ≤ screen.toNat ∧ screen.toNat ≤ 4) ∨ 2 ≤ bank.toNat ∨ 24 ≤ index.toNat → exec x s = .next (reply .noSuch)) ∧
     (∀ (sc : Screen) (b : BankId), screen.toNat = sc.num → bank.toNat = b.code → index.toNat < 24 →
       let c := s.shc.get sc
       let e := entryAt (c.bank b) index.toNat
       ((∀ r, e.kind ≠ .reel r) → exec x s = .next (reply .badField)) ∧
       (∀ r : Reel, e.kind = .reel r →
         (confirm ≠ 0 → confirm ≠ 1 → exec x s = .next (reply .badField)) ∧
         (confirm = 1 → e.state = .confirmed → exec x s = .next (reply .already)) ∧
         (confirm = 1 → e.state ≠ .confirmed → c.sideBusy r.side = true → exec x s = .next (reply .busy)) ∧
         (confirm = 1 → e.state ≠ .confirmed → c.sideBusy r.side = false →
           (b ≠ c.active ∨ c.state = .idle ∨ c.state = .preparing ∨ c.state = .ending ∨ c.state = .halted) →
           ∃ t, exec x s = .next t ∧ KeepsAllBut s t [.events, .cnl, .shc sc] ∧ t.events = s.events.erase x ∧
             Answered s.cnl t.cnl ⟨0xAD, tag, .done, none, []⟩ ∧
             (let lower := fun y : Entry =>
                if y.reelOn r.side (· = .confirmed) then { y with state := .loaded, short := false } else y
              t.shc.get sc = ({ c with bank0 := c.bank0.map lower, bank1 := c.bank1.map lower } : Shc).modEntry b
                index.toNat fun y => { y with state := .confirmed, short := false }))))) ∧
  (∀ (tag screen bank index : Byte) (sc : Screen) (b : BankId) (r : Reel) (s : State),
     let x := Instr.withdrawConfirmation tag screen bank index
     let c := s.shc.get sc
     let e := entryAt (c.bank b) index.toNat
     let reply (y : Result) : State :=
       { s with events := s.events.erase x, cnl := s.cnl.fill ⟨0xAD, tag, y, none, []⟩ }
     let lowered : Shc := c.modEntry b index.toNat fun y => { y with state := .loaded, short := false }
     screen.toNat = sc.num → bank.toNat = b.code → index.toNat < 24 → e.kind = .reel r →
     (e.state = .confirmed → exec x s = .next { reply .done with shc := s.shc.set sc lowered }) ∧
     let motor := (s.trm.get (sc.proj r.side)).motor
     (e.state = .armed → (c.state = .preparing ∧ b = c.active ∧ c.current = index.toNat) ∨ motor = true →
       exec x s = .next (reply .busy)) ∧
     (e.state = .armed → ¬(c.state = .preparing ∧ b = c.active ∧ c.current = index.toNat) → motor = false →
       exec x s = .next { reply .done with shc := s.shc.set sc { lowered with strikeFrame := none } }) ∧
     (e.state = .onScreen ∨ e.state = .runningOut → exec x s = .next (reply .busy)) ∧
     (e.state = .loaded ∨ e.state = .done → exec x s = .next (reply .already)))

/-! ## Chapter 1: the schedule -/

/-- R19, R36, R39, R40: the interval work of a booth second, with no schedule running and no switch pending. The
countdown falls by 1; the lamp of the next reel is pre-struck once, its strike lead before the end; at the last second
the interval is DONE and the screen goes on by the next entry (a reel here where it is ARMED and its lamp STABLE); and
in any other state the second does nothing. (That the lamp is STRIKING in the SHC's own second, R39 saying that a
STRIKE request is sent, is the model's reading, log entry 5.) -/
def Obligations.BoothSecondRunsTheInterval : Prop :=
  ∀ (sc : Screen) (now : Nat) (s : State),
    let x := Instr.boothSecondEvent sc now
    let c := s.shc.get sc
    let d : Shc := { c with countdown := c.countdown - 1 }
    c.switch = none → (c.schedule = none ∨ ∃ y, c.schedule = some y ∧ y.suspended = true) →
    (c.state ≠ .interval ∨ c.countdown = 0 → exec x s = .next (s.taken x)) ∧
    (c.state = .interval → 1 < c.countdown →
      (c.preStrike = true → exec x s = .next { s with events := s.events.erase x, shc := s.shc.set sc d }) ∧
      (∀ (i : Nat) (r : Reel), c.preStrike = false → c.next c.current = .reel i r →
        let p := sc.proj r.side
        let a := s.alc.get p
        let due : Prop := ((c.entry i).state = .confirmed ∨ (c.entry i).state = .armed) ∧ a.state = .dark ∧
          c.countdown - 1 ≤ a.setup.lead
        (¬due → exec x s = .next { s with events := s.events.erase x, shc := s.shc.set sc d }) ∧
        (due → ∃ t, exec x s = .next t ∧ KeepsAllBut s t [.events, .cnl, .shc sc, .alc p] ∧
          t.shc.get sc = { d with preStrike := true } ∧
          (a.remaining ≠ 0 → s.bsu.proven = true → s.bsu.fire = none → (t.alc.get p).state = .striking) ∧
          (a.remaining = 0 ∨ s.bsu.proven = false ∨ s.bsu.fire.isSome = true → t.alc.get p = a)))) ∧
    (c.state = .interval → c.countdown = 1 → ∃ t, exec x s = .next t ∧ KeepsAllBut s t (screenParts sc) ∧
      Noted s.cnl t.cnl ∧
      (let u := t.shc.get sc
       (∀ i r, c.next c.current = .reel i r → i ≠ c.current → (c.entry i).state = .armed →
        (s.alc.get (sc.proj r.side)).state = .stable → u.state = .preparing ∧ u.prep = .cont ∧ u.current = i ∧
          u.motor r.side = true ∧ (u.entry c.current).state = .done ∧ .motorOnCommand (sc.proj r.side) ∈ t.events) ∧
       (∀ i w q, c.next c.current = .interval i w q → u.state = .interval ∧ u.current = i ∧ u.countdown = w ∧
        (u.entry i).state = .active ∧ .post sc .show_ q ∈ t.events) ∧
       (c.next c.current = .finish → c.holding .runningOut = none → u.state = .idle ∧
        u.perfCount = min 65535 (c.perfCount + 1) ∧ .post sc .show_ c.setup.fin ∈ t.events) ∧
       (c.next c.current = .finish → (c.holding .runningOut).isSome = true → u.state = .ending ∧
        .post sc .show_ c.setup.fin ∈ t.events) ∧
       (∀ i f, c.next c.current = .fault i f → u.state = .gap ∧ .post sc .halt c.setup.brk ∈ t.events)))

/-- R18, R20, R21, R22, R23: the schedule at a booth second, with no switch pending and no interval running. Slot k
with no start wait open: due on an IDLE screen it is taken and starts the performance, or, where the first entry
cannot start, opens a start wait, or is missed with no grace left; due on a busy screen it is missed as OVERRUN; a
miss raises the count and suspends the schedule at the limit; before it is due the pre-strike is made once, in its
lead. (A start is said here of a reel whose lamp is STABLE.) An open start wait while slot k is not due: on a screen
that is not IDLE it is closed without a miss; with an entry that can start it starts the performance; while the first
entry cannot start it stays open before the grace is over and is missed then. Slot k due under an open start wait: the
wait is dealt with first, missed where the first entry cannot start, and the slot then by its own rule, but is not
taken where that miss suspends the schedule. (That a missed single slot makes the record absent, and that an open wait
keeps the record of a single slot and lets k stand at 65,536, are the model's reading, log entry 8; that a slot due
under an open wait whose first entry can start is missed as OVERRUN behind the wait's start is log entry 11; that the
pre-struck lamp is STRIKING in the SHC's own second, R23 saying that a STRIKE request is sent, is log entry 5.) -/
def Obligations.SlotsAreTakenOrMissed : Prop :=
  (∀ (sc : Screen) (now : Nat) (y : Schedule) (s : State),
     let x := Instr.boothSecondEvent sc now
     let c := s.shc.get sc
     let slot := y.t0 + y.k * y.tc
     let gone : Schedule := { y with k := y.k + 1, preStrike := false, miss := min 255 (y.miss + 1) }
     c.switch = none → (c.state ≠ .interval ∨ c.countdown = 0) → c.schedule = some y → y.suspended = false →
     y.wait = none → y.Left → ∃ t, exec x s = .next t ∧ KeepsAllBut s t (screenParts sc) ∧
       (let u := t.shc.get sc
        (slot ≤ now →
         (c.state ≠ .idle → u.state = c.state ∧ s.Missed sc gone .overrun slot u.schedule t.cnl) ∧
         (∀ i r, c.state = .idle → s.Startable sc i r → (s.alc.get (sc.proj r.side)).state = .stable →
           u.state = .preparing ∧ u.prep = .start ∧ u.current = i ∧ u.motor r.side = true ∧
           (u.entry i).state = .armed ∧ .motorOnCommand (sc.proj r.side) ∈ t.events ∧
           .post sc .show_ c.setup.preShow ∈ t.events ∧
           ∃ flag, Holds u.schedule { y with k := y.k + 1, preStrike := flag, miss := 0 }) ∧
         (∀ reason : NotReady, c.state = .idle → s.StartBlocked sc reason →
           u.state = .idle ∧
           (now < slot + c.setup.grace → ∃ flag, u.schedule =
             some { y with k := y.k + 1, preStrike := flag, wait := some slot }) ∧
           (slot + c.setup.grace ≤ now → s.Missed sc gone reason.missed slot u.schedule t.cnl))) ∧
        (∀ i r, now < slot → c.first = .reel i r →
         let p := sc.proj r.side
         let a := s.alc.get p
         (y.preStrike = true ∨ now < slot - a.setup.lead → t = s.taken x) ∧
         (y.preStrike = false → slot - a.setup.lead ≤ now →
           u = { c with schedule := some { y with preStrike := true } } ∧
           (c.state = .idle → (c.entry i).state = .confirmed → a.state = .dark → a.remaining ≠ 0 →
             s.bsu.proven = true → s.bsu.fire = none → (t.alc.get p).state = .striking) ∧
           (c.state ≠ .idle ∨ (c.entry i).state ≠ .confirmed ∨ a.state ≠ .dark → t.alc.get p = a))))) ∧
  (∀ (sc : Screen) (now w : Nat) (y : Schedule) (s : State),
     let x := Instr.boothSecondEvent sc now
     let c := s.shc.get sc
     let slot := y.t0 + y.k * y.tc
     let closed : Schedule := { y with wait := none }
     let missed : Schedule := { closed with miss := min 255 (y.miss + 1) }
     c.switch = none → (c.state ≠ .interval ∨ c.countdown = 0) → c.schedule = some y → y.suspended = false →
     y.wait = some w → ∃ t, exec x s = .next t ∧ KeepsAllBut s t (screenParts sc) ∧
       (let u := t.shc.get sc
        (¬y.Left ∨ now < slot →
         (c.state ≠ .idle → u.state = c.state ∧ Noted s.cnl t.cnl ∧
          ∃ flag, Holds u.schedule { closed with preStrike := flag }) ∧
         (∀ i r, c.state = .idle → s.Startable sc i r → (s.alc.get (sc.proj r.side)).state = .stable →
          u.state = .preparing ∧ u.prep = .start ∧ u.current = i ∧ .motorOnCommand (sc.proj r.side) ∈ t.events ∧
          ∃ flag, Holds u.schedule { closed with preStrike := flag, miss := 0 }) ∧
         (∀ reason : NotReady, c.state = .idle → s.StartBlocked sc reason → u.state = .idle ∧
          (now < w + c.setup.grace → ∃ flag, u.schedule = some { y with preStrike := flag }) ∧
          (w + c.setup.grace ≤ now → s.Missed sc missed reason.missed w u.schedule t.cnl))) ∧
        (y.Left → slot ≤ now →
         (c.state ≠ .idle → u.state = c.state ∧
          s.Missed sc { missed with k := y.k + 1, preStrike := false } .overrun slot u.schedule t.cnl) ∧
         (∀ i r, c.state = .idle → s.Startable sc i r → (s.alc.get (sc.proj r.side)).state = .stable →
          u.state = .preparing ∧ u.prep = .start ∧ u.current = i ∧ .motorOnCommand (sc.proj r.side) ∈ t.events ∧
          s.Missed sc { closed with k := y.k + 1, preStrike := false, miss := 1 } .overrun slot u.schedule t.cnl) ∧
         (∀ reason : NotReady, c.state = .idle → s.StartBlocked sc reason → u.state = .idle ∧
          Told s.cnl t.cnl ⟨s.bck.time, .schedule sc .missed (some reason.missed) 1 w⟩ ∧
          (c.setup.limit ≤ missed.miss → u.schedule = some { missed with suspended := true }) ∧
          (missed.miss < c.setup.limit →
           (now < slot + c.setup.grace → ∃ flag, u.schedule =
             some { missed with k := y.k + 1, preStrike := flag, wait := some slot }) ∧
           (slot + c.setup.grace ≤ now → s.Missed sc
             { missed with k := y.k + 1, preStrike := false, miss := min 255 (missed.miss + 1) } reason.missed slot
             u.schedule t.cnl))))))

/-- R14, R15, R16, R19, R37, R40, R48, R49: a pending switch. At a booth second from S0 seconds before T0 on an IDLE
screen it takes effect: the banks exchange roles, the former active bank is LOADED, the schedule is the new one with
slot index 0, the pending record is gone and the SWITCH notice says TAKEN; the slots whose time and grace are past are
skipped, with one notice LATE SWITCH, and the rest of that second is the second of the new schedule (that a slot whose
time has come is dealt with in it, and not in the next, is the model's choice, log entry 31); otherwise it stays
pending. It takes effect in the same way when the screen enters IDLE by ABORT, by the runout that ends the
performance, by a RESUME that leads to END or none, or by an interval end that does so on a booth second, the rest of
which is then the work of a second on the IDLE screen; from S0 seconds before T0 by the Booth Clock (log entry 22),
and stays pending there before. -/
def Obligations.PendingSwitchTakesEffect : Prop :=
  ∀ (sc : Screen) (now i : Nat) (w : PendingSwitch) (r : Reel) (s : State),
    let x := Instr.boothSecondEvent sc now
    let c := s.shc.get sc
    let lead := (s.alc.get (sc.proj r.side)).setup.lead
    let fresh : Schedule := ⟨w.t0, w.tc, w.np, 0, 0, false, none, false⟩
    let unload (e : Entry) : Entry := if e.kind = .empty then e else { e with state := .loaded, short := false }
    let exchanged (held : Option Schedule) : Shc := { c.setBank c.active ((c.bank c.active).map unload) with
      active := c.active.other, schedule := held, switch := none }
    let taken : Notice := ⟨s.bck.time, .switch sc true w.t0 w.tc w.np⟩
    c.switch = some w → resolve (c.bank c.active.other) 0 = .reel i r →
    (c.state = .idle → w.t0 - lead ≤ now → ∃ (n : Nat) (held : Option Schedule),
      (∀ j, j < n → ({ fresh with k := j } : Schedule).Left ∧ w.t0 + j * w.tc + c.setup.grace < now) ∧
      (({ fresh with k := n } : Schedule).Left → now ≤ w.t0 + n * w.tc + c.setup.grace) ∧
      (n = 0 → held = some fresh) ∧ (0 < n → Holds held { fresh with k := n }) ∧
      exec x s = exec x { s with
        shc := s.shc.set sc (exchanged held)
        cnl := if n = 0 then s.cnl.raise taken else
          (s.cnl.raise taken).raise ⟨s.bck.time, .schedule sc .skipped (some .lateSwitch) (min 255 n) w.t0⟩ }) ∧
    (c.state = .idle → w.t0 - lead ≤ now → now < w.t0 → ∃ t, exec x s = .next t ∧
      KeepsAllBut s t [.events, .cnl, .shc sc, .alc (sc.proj r.side)] ∧ Noted (s.cnl.raise taken) t.cnl ∧
      ∃ flag, t.shc.get sc = exchanged (some { fresh with preStrike := flag })) ∧
    ((c.state ≠ .idle ∧ c.state ≠ .interval) ∨ (c.state = .idle ∧ now < w.t0 - lead) → c.schedule = none →
      exec x s = .next (s.taken x)) ∧
    let entersIdle (t : State) (reply : Option Reply) : Prop :=
      KeepsAllBut s t (screenParts sc) ∧
        (let d := t.shc.get sc
         d.state = .idle ∧ d.bank c.active.other = c.bank c.active.other ∧
         (w.t0 - lead ≤ s.bck.time → d.active = c.active.other ∧ d.switch = none ∧
          (∀ e, e ∈ d.bank c.active → e.kind = .empty ∨ (e.state = .loaded ∧ e.short = false)) ∧
          (s.bck.time ≤ w.t0 + c.setup.grace → d.schedule = some fresh) ∧
          ∃ (before after : List Notice) (base : Cnl), base = (before ++ [taken] ++ after).foldl Cnl.raise s.cnl ∧
            t.cnl = reply.elim base base.fill) ∧
         (s.bck.time < w.t0 - lead → d.active = c.active ∧ d.switch = some w ∧ d.schedule = c.schedule))
    (∀ (y : Instr) (reply : Option Reply) (tag screen : Byte) (side : Side) (count j : Nat) (q : Reel),
      (y = .abort tag screen ∧ screen.toNat = sc.num ∧ c.state ≠ .idle ∧
          reply = some ⟨0xB2, tag, .done, none, []⟩) ∨
        (y = .runoutReached (sc.proj side) count ∧ c.state = .ending ∧
          c.holdingOn .runningOut side = some (j, q) ∧ c.current = j ∧ reply = none) ∨
        (y = .resume tag screen ∧ screen.toNat = sc.num ∧ s.bsu.fire = none ∧ s.bsu.estop = none ∧
          ((c.state = .interval ∧ c.countdown = 0 ∧ c.next c.current = .finish ∧ c.holding .runningOut = none) ∨
            (c.state = .halted ∧ ∃ h, c.halt = some h ∧ h.point = .after ∧ c.next h.index = .finish)) ∧
          reply = some ⟨0xB1, tag, .done, none, []⟩) →
      ∃ t, exec y s = .next t ∧ entersIdle t reply) ∧
    (c.state = .interval → c.countdown = 1 → c.next c.current = .finish → c.holding .runningOut = none →
      ∃ t, entersIdle t none ∧ exec x s = exec x { t with events := x :: t.events })

/-- R24, R18: SET CLOCK at a screen's schedule. Set forward, every slot whose time is less than the new booth time is
skipped, with one SKIPPED notice of their number and the first one's time; set back, or with no slot overtaken, or with
the schedule absent or suspended, nothing changes. -/
def Obligations.SetClockSkipsOvertakenSlots : Prop :=
  ∀ (sc : Screen) (old new : Nat) (y : Schedule) (s : State),
    let x := Instr.clockSetEvent sc old new
    let c := s.shc.get sc
    let slot := y.t0 + y.k * y.tc
    let skipped (z : Option Schedule) (count : Nat) : State := { s with
      events := s.events.erase x
      shc := s.shc.set sc { c with schedule := z }
      cnl := s.cnl.raise ⟨s.bck.time, .schedule sc .skipped (some .clockSet) (min 255 count) slot⟩ }
    (c.schedule = none → exec x s = .next (s.taken x)) ∧
    (c.schedule = some y →
      (y.suspended = true ∨ new ≤ old ∨ new ≤ slot ∨ ¬y.Left → exec x s = .next (s.taken x)) ∧
      (y.suspended = false → old < new → slot < new → y.Left → ∃ (n : Nat) (z : Option Schedule),
        0 < n ∧ Holds z { y with k := y.k + n, preStrike := false } ∧ exec x s = .next (skipped z n) ∧
        (y.tc = 0 → n = 1) ∧
        (∀ j, j < n → ({ y with k := y.k + j } : Schedule).Left ∧ y.t0 + (y.k + j) * y.tc < new) ∧
        (({ y with k := y.k + n } : Schedule).Left → new ≤ y.t0 + (y.k + n) * y.tc)))

/-! ## Chapter 2: performances -/

/-- R27, R28, R93, R113, R117, R118, 10.6: SET SCREEN is checked whole: NO SUCH, then BAD FIELD, then BUSY for a change
of f, L0 or the runout allowance on a screen that is not IDLE; accepted it writes every field, the clamped ones clamped.
SET TRIM is refused BUSY on a lit lamp; on a DARK lamp it sets T to the length, clamped to 16,000, and C to 0 and clears
the low-reported flag; a FAILED lamp also goes DARK with cause TRIM SET; the SHC is told. SET LAMP writes the whole lamp
setup, every field brought into its range, I_nom before I_min, with the adjusted flag set when a field was changed by
clamping; an auto-restrike code other than 0 and 1 is refused BAD FIELD. -/
def Obligations.SetupsAndTrimsAreWritten : Prop :=
  (∀ (tag screen : Byte) (x : ScreenFields) (s : State),
     let i := Instr.setScreen tag screen x
     let reply (r : Result) (adjusted : Bool) : State :=
       { s with events := s.events.erase i, cnl := s.cnl.fill ⟨0xA0, tag, r, some adjusted, []⟩ }
     let good := (x.f.toNat = 24 ∨ x.f.toNat = 25) ∧ x.cueMode.toNat ≤ 1 ∧ x.policy.toNat ≤ 1 ∧
       (x.limit.toNat = 4 ∨ x.limit.toNat = 8 ∨ x.limit.toNat = 16 ∨ x.limit.toNat = 32) ∧
       x.preShow.toNat ≤ 7 ∧ x.brk.toNat ≤ 7 ∧ x.fin.toNat ≤ 7
     let setup : ScreenSetup :=
       { f := x.f.toNat, l0 := max 96 (min 384 x.l0.toNat),
         cueMode := if x.cueMode.toNat = 0 then .counted else .sensed, w := min 96 x.w.toNat,
         allowance := max 48 (min 480 x.allowance.toNat), policy := if x.policy.toNat = 0 then .hold else .run,
         grace := min 1800 x.grace.toNat, limit := x.limit.toNat, preShow := x.preShow.toNat, brk := x.brk.toNat,
         fin := x.fin.toNat }
     let clamped : Bool := !(96 ≤ x.l0.toNat && x.l0.toNat ≤ 384 && x.w.toNat ≤ 96 && 48 ≤ x.allowance.toNat &&
       x.allowance.toNat ≤ 480 && x.grace.toNat ≤ 1800)
     (¬(1 ≤ screen.toNat ∧ screen.toNat ≤ 4) → exec i s = .next (reply .noSuch false)) ∧
     (∀ sc : Screen, screen.toNat = sc.num →
       let c := s.shc.get sc
       let changes := c.setup.f ≠ setup.f ∨ c.setup.l0 ≠ setup.l0 ∨ c.setup.allowance ≠ setup.allowance
       (¬good → exec i s = .next (reply .badField false)) ∧
       (good → c.state ≠ .idle → changes → exec i s = .next (reply .busy false)) ∧
       (good → (c.state = .idle ∨ ¬changes) → exec i s =
         .next { reply .done clamped with shc := s.shc.set sc { c with setup := setup } }))) ∧
  (∀ (tag lamp : Byte) (length : Half) (s : State),
     let x := Instr.setTrim tag lamp length
     let t := min 16000 length.toNat
     let answer (c : Cnl) (r : Result) (adjusted : Bool) : Cnl := c.fill ⟨0xBA, tag, r, some adjusted, []⟩
     (¬(1 ≤ lamp.toNat ∧ lamp.toNat ≤ 8) →
       exec x s = .next { s with events := s.events.erase x, cnl := answer s.cnl .noSuch false }) ∧
     (∀ p : Proj, lamp.toNat = p.num →
       let a := s.alc.get p
       let fitted : Alc :=
         { a with trim := t, consumed := 0, service := a.service.map fun v => { v with lowReported := false } }
       (a.state = .striking ∨ a.state = .warming ∨ a.state = .stable →
         exec x s = .next { s with events := s.events.erase x, cnl := answer s.cnl .busy false }) ∧
       (a.state = .dark → exec x s = .next { s with
         events := s.events.erase x ++ [.setTrimAccepted p]
         alc := s.alc.set p fitted
         cnl := answer s.cnl .done (decide (16000 < length.toNat)) }) ∧
       (a.state = .failed → exec x s = .next { s with
         events := s.events.erase x ++ [.lampStateChange p .dark .failed .trimSet, .setTrimAccepted p]
         alc := s.alc.set p { fitted with
           state := .dark, lastCause := .trimSet, withheld := none, strikerTimer := false, attemptTimer := false,
           coolOffTimer := false }
         cnl := answer (s.cnl.raise ⟨s.bck.time, .lamp p .dark .failed .trimSet none none a.vm a.im t⟩) .done
           (decide (16000 < length.toNat)) }))) ∧
  (∀ (tag lamp : Byte) (x : LampFields) (s : State),
     let i := Instr.setLamp tag lamp x
     let reply (r : Result) (adjusted : Bool) : State :=
       { s with events := s.events.erase i, cnl := s.cnl.fill ⟨0xA1, tag, r, some adjusted, []⟩ }
     let inom := max 30 (min 150 x.inom.toNat)
     let setup : LampSetup :=
       { vset := max 200 (min 600 x.vset.toNat), d := min 50 x.d.toNat, kf := x.kf.toNat,
         band := max 5 (min 100 x.band.toNat), b := max 1 x.b.toNat, inom := inom,
         imin := max 10 (min inom x.imin.toNat), lead := max 30 (min 600 x.lead.toNat),
         limit := max 1 (min 8 x.limit.toNat), margin := min 600 x.margin.toNat, auto := decide (x.auto = 1) }
     let inRange : Prop := 200 ≤ x.vset.toNat ∧ x.vset.toNat ≤ 600 ∧ x.d.toNat ≤ 50 ∧ 5 ≤ x.band.toNat ∧
       x.band.toNat ≤ 100 ∧ 1 ≤ x.b.toNat ∧ 30 ≤ x.inom.toNat ∧ x.inom.toNat ≤ 150 ∧ 10 ≤ x.imin.toNat ∧
       x.imin.toNat ≤ inom ∧ 30 ≤ x.lead.toNat ∧ x.lead.toNat ≤ 600 ∧ 1 ≤ x.limit.toNat ∧ x.limit.toNat ≤ 8 ∧
       x.margin.toNat ≤ 600
     (¬(1 ≤ lamp.toNat ∧ lamp.toNat ≤ 8) → exec i s = .next (reply .noSuch false)) ∧
     (∀ p : Proj, lamp.toNat = p.num →
       (x.auto ≠ 0 → x.auto ≠ 1 → exec i s = .next (reply .badField false)) ∧
       (x.auto = 0 ∨ x.auto = 1 → ∃ adjusted, (adjusted = false ↔ inRange) ∧
         exec i s = .next { reply .done adjusted with alc := s.alc.set p { s.alc.get p with setup := setup } })))

/-- R29, R30, R31: START. Its refusals before the start test change nothing; with a first entry that is a REEL,
CONFIRMED, its transport STOPPED and its trim long enough, the reel is armed and brought up in PREPARING kind START:
the count is zeroed, dousers closed, sound muted, misses cleared, the pre-show preset posted, and the motor is
commanded on at once if the lamp is STABLE; a DARK lamp that may be struck is STRIKING. (That it is STRIKING in the
SHC's own step, R31 saying that a STRIKE request is sent, is the model's reading, log entry 5.) -/
def Obligations.StartBringsUpTheFirstReel : Prop :=
  ∀ (tag screen : Byte) (s : State),
    let x := Instr.start tag screen
    let reply (r : Result) : State :=
      { s with events := s.events.erase x, cnl := s.cnl.fill ⟨0xB0, tag, r, none, []⟩ }
    (¬(1 ≤ screen.toNat ∧ screen.toNat ≤ 4) → exec x s = .next (reply .noSuch)) ∧
    (∀ sc : Screen, screen.toNat = sc.num →
      let c := s.shc.get sc
      (c.state ≠ .idle → exec x s = .next (reply .busy)) ∧
      (c.state = .idle → s.bsu.fire.isSome = true → exec x s = .next (reply .fireLock)) ∧
      (c.state = .idle → s.bsu.fire = none → s.bsu.estop.isSome = true →
        exec x s = .next (reply (.notReady .estop))) ∧
      (∀ (i : Nat) (r : Reel), c.state = .idle → s.bsu.fire = none → s.bsu.estop = none →
        c.first = .reel i r → (c.entry i).state = .confirmed →
        (s.trm.get (sc.proj r.side)).state = .stopped → s.trimPasses sc i r .coldStart = true →
        let p := sc.proj r.side
        let lamp := (s.alc.get p).state
        let armed : Shc := { c.modEntry c.active i (fun e => { e with state := .armed, short := false }) with
          current := i, prep := .start, state := .preparing, douserA := false, douserB := false, muted := true,
          schedule := c.schedule.map fun y => { y with miss := 0 } }
        (lamp.lit = true → ∃ t, exec x s = .next t ∧ KeepsAllBut s t [.events, .cnl, .shc sc, .trm p] ∧
          t.trm.get p = { s.trm.get p with count := 0, runLength := some r.lp } ∧
          Answered s.cnl t.cnl ⟨0xB0, tag, .accepted, none, []⟩ ∧
          (lamp = .stable → t.shc.get sc = armed.setMotor r.side true ∧
            t.events = s.events.erase x ++ [.post sc .show_ c.setup.preShow, .motorOnCommand p]) ∧
          (lamp ≠ .stable → t.shc.get sc = armed ∧
            t.events = s.events.erase x ++ [.post sc .show_ c.setup.preShow])) ∧
        (lamp = .dark → (s.alc.get p).remaining ≠ 0 → s.bsu.proven = true → ∃ t, exec x s = .next t ∧
          KeepsAllBut s t [.events, .cnl, .shc sc, .trm p, .alc p] ∧ t.shc.get sc = armed ∧
          t.trm.get p = { s.trm.get p with count := 0, runLength := some r.lp } ∧
          (t.alc.get p).state = .striking ∧ Answered s.cnl t.cnl ⟨0xB0, tag, .accepted, none, []⟩ ∧
          t.events = s.events.erase x ++
            [.lampStateChange p .striking .dark .struck, .post sc .show_ c.setup.preShow])))

/-- R21, R29 item 5, R45, R54, R65, R69: a START whose first entry cannot start is refused NOT READY with the first
reason: NOT THREADED (a programme fault, an entry that is no REEL or not CONFIRMED, a transport not STOPPED), LAMP
FAILED, or TRIM SHORT under HOLD; nothing but notices and the reply comes of it. RESUME's refusals by screen state,
the fire lock first, and CHANGE NOW's refusals, in their order, change nothing. (That RESUME in GAP tests the emergency
stop before it resolves the next entry, so that no notice of a fault comes of it, is the model's reading, log entry
12.) -/
def Obligations.ShowRequestsAreRefusedInOrder : Prop :=
  (∀ (tag screen : Byte) (sc : Screen) (s : State),
     let x := Instr.start tag screen
     let c := s.shc.get sc
     screen.toNat = sc.num → c.state = .idle → s.bsu.fire = none → s.bsu.estop = none →
     ∀ reason : NotReady, s.StartBlocked sc reason →
       ∃ t, exec x s = .next t ∧ KeepsAllBut s t [.events, .cnl] ∧ t.events = s.events.erase x ∧
         Answered s.cnl t.cnl ⟨0xB0, tag, .notReady reason, none, []⟩) ∧
  (∀ (tag screen : Byte) (s : State),
     let x := Instr.resume tag screen
     let reply (r : Result) : State :=
       { s with events := s.events.erase x, cnl := s.cnl.fill ⟨0xB1, tag, r, none, []⟩ }
     (¬(1 ≤ screen.toNat ∧ screen.toNat ≤ 4) → exec x s = .next (reply .noSuch)) ∧
     (∀ sc : Screen, screen.toNat = sc.num →
       let c := s.shc.get sc
       (s.bsu.fire.isSome = true → exec x s = .next (reply .fireLock)) ∧
       (s.bsu.fire = none → (c.state = .idle ∨ c.state = .preparing ∨ c.state = .showing ∨ c.state = .ending ∨
         (c.state = .interval ∧ 0 < c.countdown)) → exec x s = .next (reply .busy)) ∧
       (s.bsu.fire = none → s.bsu.estop.isSome = true → (c.state = .gap ∨ c.state = .halted ∨
         (c.state = .interval ∧ c.countdown = 0)) → exec x s = .next (reply (.notReady .estop))))) ∧
  (∀ (tag screen : Byte) (s : State),
     let x := Instr.changeNow tag screen
     let reply (r : Result) : State :=
       { s with events := s.events.erase x, cnl := s.cnl.fill ⟨0xB3, tag, r, none, []⟩ }
     (¬(1 ≤ screen.toNat ∧ screen.toNat ≤ 4) → exec x s = .next (reply .noSuch)) ∧
     (∀ sc : Screen, screen.toNat = sc.num →
       let c := s.shc.get sc
       (c.state ≠ .showing → exec x s = .next (reply .busy)) ∧
       (c.state = .showing → c.holding .armed = none → exec x s = .next (reply (.notReady .notArmed))) ∧
       (∀ (i j : Nat) (r q : Reel), c.state = .showing → c.holding .onScreen = some (i, r) →
         c.holding .armed = some (j, q) →
         let u := sc.proj q.side
         ((s.trm.get u).state ≠ .atSpeed → exec x s = .next (reply (.notReady .transport))) ∧
         ((s.trm.get u).state = .atSpeed → (s.alc.get u).state ≠ .stable →
           exec x s = .next (reply (.notReady .lamp))) ∧
         ((s.trm.get u).state = .atSpeed → (s.alc.get u).state = .stable →
           (s.bsu.shutters.get u).state ≠ .raised → exec x s = .next (reply (.notReady .shutter))) ∧
         ((s.trm.get u).state = .atSpeed → (s.alc.get u).state = .stable →
           (s.bsu.shutters.get u).state = .raised → (s.bsu.vetoes.get u).isSome = true →
           exec x s = .next (reply (.notReady .veto))))))

/-- R30, R46, R47, R48: RESUME of a halt with a PICTURE resume point. The shutter not RAISED and the loop not closed
are refused; otherwise, the lamp lit, the held reel is brought up in PREPARING kind RESUME with its count kept, the
halt record is removed and the HALT rank released, and the motor is commanded on at once if the lamp is STABLE. RESUME
in GAP, and in HALTED at a REEL or an AFTER resume point whose next entry is a REEL: with that reel ARMED and its lamp
STABLE it is brought up in PREPARING kind CONTINUE, the HALT rank released. A DARK lamp (at a PICTURE resume point a
FAILED one too) is asked to strike as part of the check: the strike stands, or RESUME is refused by its reason. AFTER
with an INTERVAL or END next enters it or ends the performance, and a fault is refused. RESUME in an INTERVAL of
duration 0 ends it and goes on by the next entry. (That an accepted strike has the lamp STRIKING in the SHC's own step
is the model's reading, log entry 5.) -/
def Obligations.ResumeBringsTheScreenBack : Prop :=
  (∀ (tag screen : Byte) (sc : Screen) (h : HaltRecord) (i : Nat) (r : Reel) (s : State),
     let x := Instr.resume tag screen
     let c := s.shc.get sc
     let p := sc.proj r.side
     let reply (y : Result) : State :=
       { s with events := s.events.erase x, cnl := s.cnl.fill ⟨0xB1, tag, y, none, []⟩ }
     screen.toNat = sc.num → c.state = .halted → s.bsu.fire = none → s.bsu.estop = none →
     c.halt = some h → h.point = .picture → c.holding .onScreen = some (i, r) →
     ((s.bsu.shutters.get p).state ≠ .raised → exec x s = .next (reply (.notReady .shutter))) ∧
     ((s.bsu.shutters.get p).state = .raised → (s.trm.get p).loopClosed ≠ some true →
       exec x s = .next (reply (.notReady .loop))) ∧
     ((s.bsu.shutters.get p).state = .raised → (s.trm.get p).loopClosed = some true →
       (s.alc.get p).state.lit = true → ∃ t, exec x s = .next t ∧ KeepsAllBut s t [.events, .cnl, .shc sc] ∧
         (let d : Shc := { c with
           current := i, prep := .resume, state := .preparing, halt := none, douserA := false, douserB := false,
           muted := true, schedule := c.schedule.map fun y => { y with miss := 0 } }
          Answered s.cnl t.cnl ⟨0xB1, tag, .accepted, none, []⟩ ∧
          ((s.alc.get p).state = .stable → t.shc.get sc = d.setMotor r.side true ∧
           t.events = s.events.erase x ++ [.haltRelease sc, .motorOnCommand p]) ∧
          ((s.alc.get p).state ≠ .stable → t.shc.get sc = d ∧ t.events = s.events.erase x ++ [.haltRelease sc]))) ∧
     ((s.bsu.shutters.get p).state = .raised → (s.trm.get p).loopClosed = some true →
       (s.alc.get p).state = .dark ∨ (s.alc.get p).state = .failed →
       ((s.alc.get p).remaining = 0 → exec x s = .next (reply (.notReady .noTrim))) ∧
       ((s.alc.get p).remaining ≠ 0 → s.bsu.proven = false → exec x s = .next (reply (.notReady .exhaust))) ∧
       ((s.alc.get p).remaining ≠ 0 → s.bsu.proven = true → ∃ t, exec x s = .next t ∧
         KeepsAllBut s t [.events, .cnl, .shc sc, .alc p] ∧ (t.alc.get p).state = .striking ∧
         Answered s.cnl t.cnl ⟨0xB1, tag, .accepted, none, []⟩ ∧
         t.events = s.events.erase x ++
           [.lampStateChange p .striking (s.alc.get p).state .struck, .haltRelease sc] ∧
         t.shc.get sc = { c with
           current := i, prep := .resume, state := .preparing, halt := none, douserA := false, douserB := false,
           muted := true, schedule := c.schedule.map fun y => { y with miss := 0 } }))) ∧
  (∀ (tag screen : Byte) (sc : Screen) (i : Nat) (r : Reel) (s : State),
     let x := Instr.resume tag screen
     let c := s.shc.get sc
     let p := sc.proj r.side
     let refused (why : NotReady) : State :=
       { s with events := s.events.erase x, cnl := s.cnl.fill ⟨0xB1, tag, .notReady why, none, []⟩ }
     let up : Shc := { c with
       current := i, prep := .cont, state := .preparing, douserA := false, douserB := false, muted := true,
       halt := if c.state = .halted then none else c.halt,
       schedule := c.schedule.map fun y => { y with miss := 0 } }
     screen.toNat = sc.num → s.bsu.fire = none → s.bsu.estop = none →
     (c.entry i).kind = .reel r → (c.entry i).state = .armed →
     ((c.state = .gap ∧ c.next c.current = .reel i r) ∨
       (c.state = .halted ∧ ∃ h, c.halt = some h ∧
         ((h.point = .reel ∧ h.index = i) ∨ (h.point = .after ∧ c.next h.index = .reel i r)))) →
     ((s.alc.get p).state = .stable → ∃ t, exec x s = .next t ∧ KeepsAllBut s t [.events, .cnl, .shc sc] ∧
       Answered s.cnl t.cnl ⟨0xB1, tag, .accepted, none, []⟩ ∧
       t.events = s.events.erase x ++ [.haltRelease sc, .motorOnCommand p] ∧
       t.shc.get sc = up.setMotor r.side true) ∧
     ((s.alc.get p).state = .dark →
       ((s.alc.get p).remaining = 0 → exec x s = .next (refused .noTrim)) ∧
       ((s.alc.get p).remaining ≠ 0 → s.bsu.proven = false → exec x s = .next (refused .exhaust)) ∧
       ((s.alc.get p).remaining ≠ 0 → s.bsu.proven = true → ∃ t, exec x s = .next t ∧
         KeepsAllBut s t [.events, .cnl, .shc sc, .alc p] ∧ (t.alc.get p).state = .striking ∧
         Answered s.cnl t.cnl ⟨0xB1, tag, .accepted, none, []⟩ ∧
         t.events = s.events.erase x ++ [.lampStateChange p .striking .dark .struck, .haltRelease sc] ∧
         t.shc.get sc = up))) ∧
  (∀ (tag screen : Byte) (sc : Screen) (i : Nat) (s : State),
     let x := Instr.resume tag screen
     let c := s.shc.get sc
     let leads (halted : Bool) (result : Result) (goesOn : Shc → List Instr → Prop) : Prop :=
       ∃ t, exec x s = .next t ∧ KeepsAllBut s t (screenParts sc) ∧
         Answered s.cnl t.cnl ⟨0xB1, tag, result, none, []⟩ ∧ goesOn (t.shc.get sc) t.events ∧
         (halted = true → (t.shc.get sc).halt = none ∧ .haltRelease sc ∈ t.events)
     let interval (j d q : Nat) (u : Shc) (es : List Instr) : Prop :=
       u.state = .interval ∧ u.current = j ∧ u.countdown = d ∧ (u.entry j).state = .active ∧ .post sc .show_ q ∈ es
     let ends (u : Shc) (es : List Instr) : Prop :=
       u.state = .idle ∧ u.perfCount = min 65535 (c.perfCount + 1) ∧ .post sc .show_ c.setup.fin ∈ es
     screen.toNat = sc.num → s.bsu.fire = none → s.bsu.estop = none →
     (∀ h, c.state = .halted → c.halt = some h → h.point = .after → h.index = i →
       (∀ j d q, c.next i = .interval j d q → leads true .done (interval j d q)) ∧
       (c.next i = .finish → leads true .done ends) ∧
       (∀ k why, c.next i = .fault k why → exec x s = .next { s with
         events := s.events.erase x
         cnl := (s.cnl.raise ⟨s.bck.time, .programmeFault sc c.active (i + 1) k why⟩).fill
           ⟨0xB1, tag, .notReady .notThreaded, none, []⟩ })) ∧
     (c.state = .interval → c.countdown = 0 → c.current = i →
       (∀ j r, c.next i = .reel j r → j ≠ i → (c.entry j).state = .armed →
         (s.alc.get (sc.proj r.side)).state = .stable → leads false .accepted fun u es =>
           u.state = .preparing ∧ u.prep = .cont ∧ u.current = j ∧ u.motor r.side = true ∧
           (u.entry i).state = .done ∧ .motorOnCommand (sc.proj r.side) ∈ es) ∧
       (∀ j d q, c.next i = .interval j d q → leads false .done (interval j d q)) ∧
       (c.next i = .finish → c.holding .runningOut = none → leads false .done ends) ∧
       (c.next i = .finish → (c.holding .runningOut).isSome = true → leads false .done fun u es =>
         u.state = .ending ∧ .post sc .show_ c.setup.fin ∈ es) ∧
       (∀ k why, c.next i = .fault k why → leads false .done fun u es =>
         u.state = .gap ∧ .post sc .halt c.setup.brk ∈ es)))

/-- R49: ABORT ends the performance: dousers closed, sound muted, both motors commanded off, both lamps DARK, the
entries as item 4 states, the halt record gone, IDLE; with no switch pending nothing else follows. (That both lamps
are DARK in the SHC's own step, R49 saying that they are sent EXTINGUISH, is the model's reading, log entry 5; that
side A's motor is stopped before side B's is log entry 33; that the HALT rank is released in every state is log entry
17.) -/
def Obligations.AbortEndsThePerformance : Prop :=
  ∀ (tag screen : Byte) (s : State),
    let x := Instr.abort tag screen
    let reply (r : Result) : State :=
      { s with events := s.events.erase x, cnl := s.cnl.fill ⟨0xB2, tag, r, none, []⟩ }
    (¬(1 ≤ screen.toNat ∧ screen.toNat ≤ 4) → exec x s = .next (reply .noSuch)) ∧
    (∀ sc : Screen, screen.toNat = sc.num →
      let c := s.shc.get sc
      (c.state = .idle → exec x s = .next (reply .already)) ∧
      (c.state ≠ .idle → c.switch = none → ∃ t, exec x s = .next t ∧
        KeepsAllBut s t [.events, .cnl, .shc sc, .alc (sc.proj .a), .alc (sc.proj .b)] ∧
        Answered s.cnl t.cnl ⟨0xB2, tag, .done, none, []⟩ ∧
        (∀ side, (t.alc.get (sc.proj side)).state = .dark ∧ (t.alc.get (sc.proj side)).service = none) ∧
        (∃ es, t.events = s.events.erase x ++ [.motorStop (sc.proj .a), .motorStop (sc.proj .b)] ++ es ++
          [.haltRelease sc, .post sc .show_ c.setup.fin]) ∧
        t.shc.get sc = { c.setBank c.active ((c.bank c.active).map fun e =>
            match e.state with
            | .armed | .onScreen | .runningOut | .active => { e with state := .loaded, short := false }
            | .done =>
              match e.kind with
              | .interval _ _ => { e with state := .loaded, short := false }
              | _ => { e with short := false }
            | _ => { e with short := false }) with
          state := .idle, douserA := false, douserB := false, muted := true, motorA := false, motorB := false,
          countdown := 0, preStrike := false, halt := none, progress := .none, strikeFrame := none,
          trimHold := none }))

/-- R41, R42, R43, R44: the halt faults. In PREPARING, SHOWING, ENDING, INTERVAL and GAP a fire, an emergency stop, a
run-up fail, a film break or stall of a projector to which the SHC's last motor command was on, and a drop (CONSOLE,
FAULT, LINK) of the shutter of the picture projector or of one whose TRM holds its motor command on halt the screen;
in IDLE none has an effect. In HALTED a further fault joins the set once and the first reason stays, a second fire or
emergency stop joining beside an equal first reason (log entry 30); a drop of a shutter (CONSOLE, FAULT, LINK) joins
only for the projector of a PICTURE resume point, and so do its lamp's faults (LampChangesReachTheScreen); a drop of
the other projector's shutter, or with reason BREAK, FIRE or POWER, changes nothing. (What counts as the SHC's last
motor command, for a break or stall of R41 and for the ARMED entry of R42, and that a run-up fail, break or stall
joins in HALTED whatever it was, are the model's reading, log entry 7; the order of the two motor stops is log entry
33.) -/
def Obligations.HaltFaultsStopTheScreen : Prop :=
  (∀ (sc : Screen) (p : Proj) (count : Nat) (kind : BreakKind) (reason : DropReason) (s : State),
     let q := s.shc.get p.screen
     let fault := reason = .console ∨ reason = .fault ∨ reason = .link
     ((s.shc.get sc).state ≠ .idle → (s.shc.get sc).state ≠ .halted →
       (∃ t, exec (.fireEvent sc) s = .next t ∧ HaltedBy (s.taken (.fireEvent sc)) t sc .fire none) ∧
       (∃ t, exec (.emergencyStopEvent sc) s = .next t ∧
         HaltedBy (s.taken (.emergencyStopEvent sc)) t sc .estop none)) ∧
     (q.state ≠ .idle → q.state ≠ .halted →
       (∃ t, exec (.runUpFail p count) s = .next t ∧
         HaltedBy (s.taken (.runUpFail p count)) t p.screen .runUpFail (some p)) ∧
       (q.motor p.side = true → ∃ t, exec (.breakOrStallEvent p kind count) s = .next t ∧
         HaltedBy (s.taken (.breakOrStallEvent p kind count)) t p.screen
           (match kind with | .filmBreak => .filmBreak | .stall => .stall) (some p)) ∧
       (q.motor p.side = false → exec (.breakOrStallEvent p kind count) s =
         .next (s.taken (.breakOrStallEvent p kind count))) ∧
       (fault → (s.trm.get p).motor = true ∨ q.pictureSide = some p.side →
         ∃ t, exec (.shutterDropped p reason) s = .next t ∧
           HaltedBy (s.taken (.shutterDropped p reason)) t p.screen .shutter (some p)) ∧
       (¬fault ∨ ((s.trm.get p).motor = false ∧ q.pictureSide ≠ some p.side) →
         exec (.shutterDropped p reason) s = .next (s.taken (.shutterDropped p reason)))) ∧
     ((s.shc.get sc).state = .idle → exec (.fireEvent sc) s = .next (s.taken (.fireEvent sc)) ∧
       exec (.emergencyStopEvent sc) s = .next (s.taken (.emergencyStopEvent sc))) ∧
     (q.state = .idle → exec (.runUpFail p count) s = .next (s.taken (.runUpFail p count)) ∧
       exec (.breakOrStallEvent p kind count) s = .next (s.taken (.breakOrStallEvent p kind count)) ∧
       exec (.shutterDropped p reason) s = .next (s.taken (.shutterDropped p reason)))) ∧
  (∀ (sc : Screen) (h : HaltRecord) (s : State), (s.shc.get sc).state = .halted → (s.shc.get sc).halt = some h →
     let c := s.shc.get sc
     let joins (i : Instr) (reason : HaltReason) : Prop := ∃ t, exec i s = .next t ∧
       KeepsAllBut s t [.events, .cnl, .shc sc] ∧ t.events = s.events.erase i ∧
       (reason ∈ h.further → t.shc.get sc = c ∧ t.cnl = s.cnl) ∧
       (reason ∉ h.further →
         t.shc.get sc = { c with halt := some { h with further := h.further ++ [reason] } } ∧
         t.cnl = s.cnl.raise ⟨s.bck.time, .screenState sc .halted .halted .furtherReason c.current
           (c.titleAt c.current) (s.countAt sc c.current) none (some h.first) h.reasonProj (some h.point)
           (some reason)⟩)
     joins (.fireEvent sc) .fire ∧ joins (.emergencyStopEvent sc) .estop ∧
     (∀ (side : Side) (count : Nat),
       joins (.runUpFail (sc.proj side) count) .runUpFail ∧
       joins (.breakOrStallEvent (sc.proj side) .filmBreak count) .filmBreak ∧
       joins (.breakOrStallEvent (sc.proj side) .stall count) .stall) ∧
     (∀ (side : Side) (reason : DropReason),
       ((reason = .console ∨ reason = .fault ∨ reason = .link) → h.point = .picture →
         (∃ i r, c.holding .onScreen = some (i, r) ∧ r.side = side) →
         joins (.shutterDropped (sc.proj side) reason) .shutter) ∧
       (h.point ≠ .picture ∨ reason = .break_ ∨ reason = .fire ∨ reason = .power ∨
           (∃ i r, c.holding .onScreen = some (i, r) ∧ r.side ≠ side) →
         exec (.shutterDropped (sc.proj side) reason) s = .next (s.taken (.shutterDropped (sc.proj side) reason)))))

/-- R32: the picture-on condition at an at-speed event. With the shutter RAISED and the veto clear the douser command
of the reel's side opens, the sound is live from that side, the screen is SHOWING and, for kinds START and CONTINUE,
the entry is ON_SCREEN; with the shutter down or the veto set the screen halts by that cause. Below L0 (but for
RESUME), not at speed, or not PREPARING with this projector, nothing changes. (The motor command of an ARMED entry at
the halt is log entry 7, the order of its motor stops log entry 33, and that the transport must still be AT_SPEED when
the event is taken log entry 13.) -/
def Obligations.PictureGoesOnAtSpeed : Prop :=
  ∀ (p : Proj) (count : Nat) (s : State),
    let x := Instr.atSpeedEvent p count
    let sc := p.screen
    let c := s.shc.get sc
    let n := (s.trm.get p).count
    (∀ r : Reel, c.state = .preparing → (c.entry c.current).kind = .reel r → r.side = p.side →
      (s.trm.get p).state = .atSpeed → (c.prep = .resume ∨ c.setup.l0 ≤ n) →
      ((s.bsu.shutters.get p).state ≠ .raised → ∃ t, exec x s = .next t ∧
        HaltedBy (s.taken x) t sc .shutter (some p)) ∧
      ((s.bsu.shutters.get p).state = .raised → ∀ v, s.bsu.vetoes.get p = some v → v ≠ .power →
        ∃ t, exec x s = .next t ∧ HaltedBy (s.taken x) t sc
          (match v with
            | .power => .shutter | .filmBreak => .filmBreak | .stall => .stall | .fire => .fire | .estop => .estop)
          (match v with | .fire => none | .estop => none | _ => some p)) ∧
      ((s.bsu.shutters.get p).state = .raised → s.bsu.vetoes.get p = none →
        (c.prep = .resume → c.holding .onScreen = some (c.current, r) ∧ (c.progress = .none → n < r.fm) ∧
          (c.progress = .motorFired → n < r.fc)) →
        (c.prep ≠ .resume → c.holding .onScreen = none ∧ n < r.fm) →
        ∃ t, exec x s = .next t ∧ KeepsAllBut s t (screenParts sc) ∧
          (let d := t.shc.get sc
           d.state = .showing ∧ d.douser p.side = true ∧ d.douser p.side.other = c.douser p.side.other ∧
           d.sound = p.side ∧ d.muted = false ∧ (d.entry c.current).state = .onScreen ∧ d.current = c.current ∧
           d.countdown = c.countdown ∧ d.perfCount = c.perfCount ∧ d.schedule = c.schedule ∧ d.halt = c.halt ∧
           Noted s.cnl t.cnl))) ∧
    ((c.state ≠ .preparing ∨ (∀ r, (c.entry c.current).kind = .reel r → r.side ≠ p.side) ∨
      (s.trm.get p).state ≠ .atSpeed ∨ (c.prep ≠ .resume ∧ n < c.setup.l0)) → exec x s = .next (s.taken x))

/-- R35, R36, R37, R38, R44: a picture end of the ON_SCREEN reel closes its douser, mutes the sound, makes the entry
RUNNING_OUT and takes the screen to INTERVAL, ENDING or GAP by the next entry; in HALTED it makes the held entry DONE,
its lamp DARK and the resume point AFTER; with no ON_SCREEN entry on the projector it changes nothing. (That the lamp
is DARK in the SHC's own step is the model's reading, log entry 5.) -/
def Obligations.PictureEndLeadsOn : Prop :=
  ∀ (p : Proj) (count : Nat) (s : State),
    let x := Instr.pictureEndReached p count
    let sc := p.screen
    let c := s.shc.get sc
    (∀ (i : Nat) (r : Reel), c.holdingOn .onScreen p.side = some (i, r) →
      (c.state = .showing ∨ (c.state = .preparing ∧ c.prep = .resume) →
        ∃ t, exec x s = .next t ∧ KeepsAllBut s t (screenParts sc) ∧ Noted s.cnl t.cnl ∧
          (let d := t.shc.get sc
           d.douser p.side = false ∧ d.muted = true ∧ (d.entry i).state = .runningOut ∧ d.halt = c.halt ∧
           (t.alc.get p).service = none ∧
           (∀ j w q, c.next c.current = .interval j w q → d.state = .interval ∧ d.current = j ∧ d.countdown = w ∧
            (d.entry j).state = .active ∧ .post sc .show_ q ∈ t.events) ∧
           (c.next c.current = .finish → d.state = .ending ∧ d.current = c.current ∧
            .post sc .show_ c.setup.fin ∈ t.events) ∧
           ((∃ j q, c.next c.current = .reel j q) ∨ (∃ j f, c.next c.current = .fault j f) →
            d.state = .gap ∧ d.current = c.current ∧ .post sc .halt c.setup.brk ∈ t.events))) ∧
      (c.state = .halted → c.holdingOn .armed p.side = none →
        ∃ t, exec x s = .next t ∧ KeepsAllBut s t [.events, .cnl, .shc sc, .alc p] ∧
          (t.alc.get p).state = .dark ∧ (t.alc.get p).service = none ∧
          t.shc.get sc = { c.modEntry c.active i fun e => { e with state := .done, short := false } with
            halt := c.halt.map fun h => { h with point := .after } })) ∧
    (c.holdingOn .onScreen p.side = none ∨ c.state = .idle ∨ c.state = .ending ∨ c.state = .interval ∨
      c.state = .gap ∨ (c.state = .preparing ∧ c.prep ≠ .resume) → exec x s = .next (s.taken x))

/-- R70, R71, R37, R40: a runout makes the RUNNING_OUT entry of the projector DONE, commands its motor off and, with
no ARMED entry on it, puts its lamp out; in ENDING the runout of the reel whose picture ended ends the performance:
its count rises, DONE intervals are LOADED, the screen is IDLE; the runout of an older tail leaves the screen in
ENDING; where ENDING came from an interval, the last tail ends it (log entry 12). With no RUNNING_OUT entry on the
projector nothing changes. (The lamp is spoken of in PREPARING, ENDING and HALTED, where no evaluation follows. That
it is DARK in the SHC's own step, R71 saying that EXTINGUISH is sent, is the model's reading, log entry 5; that a
runout in HALTED that does find its entry RUNNING_OUT does this work is log entry 12.) -/
def Obligations.RunoutEndsTheTail : Prop :=
  ∀ (p : Proj) (count : Nat) (s : State),
    let x := Instr.runoutReached p count
    let sc := p.screen
    let c := s.shc.get sc
    (∀ (i : Nat) (r : Reel), c.holdingOn .runningOut p.side = some (i, r) →
      ∃ t, exec x s = .next t ∧ KeepsAllBut s t (screenParts sc) ∧ Noted s.cnl t.cnl ∧
        .motorStop p ∈ t.events ∧
        (c.holdingOn .armed p.side = none → (c.state = .preparing ∨ c.state = .ending ∨ c.state = .halted) →
          (t.alc.get p).state = .dark) ∧
        (let last : Prop := ((∃ q, (c.entry c.current).kind = .reel q) ∧ c.current = i) ∨
           ((∀ q, (c.entry c.current).kind ≠ .reel q) ∧
             ∀ k q, (c.entry k).kind = .reel q → (c.entry k).state = .runningOut → k = i)
         (c.state = .ending → ¬last → t.shc.get sc =
          (c.setMotor p.side false).modEntry c.active i fun e => { e with state := .done, short := false }) ∧
         (c.state = .ending → last → c.switch = none → t.shc.get sc =
          { (c.setMotor p.side false).setBank c.active
              (((c.bank c.active).modify i fun e => { e with state := .done, short := false }).map fun e =>
                match e.kind with
                | .interval _ _ => if e.state = .done then { e with state := .loaded, short := false } else e
                | _ => e) with
            state := .idle, perfCount := min 65535 (c.perfCount + 1), progress := .none, strikeFrame := none,
            trimHold := none })) ∧
        (c.state ≠ .ending → (t.shc.get sc).state = c.state ∧ ((t.shc.get sc).entry i).state = .done)) ∧
    (c.holdingOn .runningOut p.side = none → exec x s = .next (s.taken x))

/-- R31, R32, R41, R44: a lamp state change at the SHC. In PREPARING the picture lamp's reaching STABLE commands its motor
on, its DARK, FAILED or arc lost halts the screen, TRIM OUT as such; in SHOWING those faults of the picture lamp halt
it; in HALTED those faults of the lamp of a PICTURE resume point's projector join the further reasons once, and those of
another lamp do not; in IDLE and ENDING, and in PREPARING for another lamp or another change, nothing follows. (The
motor command of an ARMED entry at the halt is log entry 7, the order of its motor stops log entry 33; that SET TRIM's
change of a FAILED lamp to DARK is such a fault in HALTED, and that any change to STABLE in PREPARING starts the motor,
is log entry 16.) -/
def Obligations.LampChangesReachTheScreen : Prop :=
  ∀ (p : Proj) (new old : LampState) (cause : LampCause) (s : State),
    let x := Instr.lampStateChange p new old cause
    let sc := p.screen
    let c := s.shc.get sc
    let bad := cause = .arcLost ∨ new = .dark ∨ new = .failed
    let reason : HaltReason := if cause = .trimOut then .trimOut else .lamp
    (c.pictureSide = some p.side → (c.state = .preparing ∨ c.state = .showing) → (bad ∨ cause = .trimOut) →
      ∃ t, exec x s = .next t ∧ HaltedBy (s.taken x) t sc reason (some p)) ∧
    (c.state = .preparing → c.pictureSide = some p.side → new = .stable → cause ≠ .arcLost → cause ≠ .trimOut →
      exec x s = .next { s with
        events := s.events.erase x ++ [.motorOnCommand p]
        shc := s.shc.set sc (c.setMotor p.side true) }) ∧
    (c.state = .preparing → c.pictureSide = some p.side → new = .striking ∨ new = .warming → cause ≠ .arcLost →
      cause ≠ .trimOut → exec x s = .next (s.taken x)) ∧
    (c.state = .preparing → c.pictureSide ≠ some p.side → exec x s = .next (s.taken x)) ∧
    (∀ (h : HaltRecord) (i : Nat) (r : Reel), c.state = .halted → c.halt = some h →
      (h.point = .picture → c.holding .onScreen = some (i, r) → r.side = p.side → (bad ∨ cause = .trimOut) →
        (reason ∈ h.further → exec x s = .next (s.taken x)) ∧
        (reason ∉ h.further → exec x s = .next { s with
          events := s.events.erase x
          shc := s.shc.set sc { c with halt := some { h with further := h.further ++ [reason] } }
          cnl := s.cnl.raise ⟨s.bck.time, .screenState sc .halted .halted .furtherReason c.current
            (c.titleAt c.current) (s.countAt sc c.current) none (some h.first) h.reasonProj (some h.point)
            (some reason)⟩ })) ∧
      ((h.point ≠ .picture ∨ (c.holding .onScreen = some (i, r) ∧ r.side ≠ p.side) ∨ (¬bad ∧ cause ≠ .trimOut)) →
        exec x s = .next (s.taken x))) ∧
    (c.state = .idle ∨ c.state = .ending → exec x s = .next (s.taken x))

/-! ## Chapter 3: arming and changeovers -/

/-- R121, R122, R123, R119: the trim test. The burn time available is the remaining trim times 256 over B × I_nom,
rounded down; the required burn is the run frames over f, rounded up, plus the pre-burn and the margin; the run frames
are Fc when the next entry is a REEL and Lp otherwise; the pre-burn is the strike lead, but no more than the seconds
to the outgoing cue in the changeover case, and nothing for a STABLE lamp in the cold-start case. -/
def Obligations.TrimTestComparesBurnTimes : Prop :=
  ∀ (s : State) (sc : Screen) (i : Nat) (r : Reel) (k : TrimCase),
    let c := s.shc.get sc
    let a := s.alc.get (sc.proj r.side)
    let run := match c.next i with | .reel _ _ => r.fc | _ => r.lp
    let pre := match k with
      | .changeover fc n => min a.setup.lead ((fc - n + c.setup.f - 1) / c.setup.f)
      | .coldStart => if a.state = .stable then 0 else a.setup.lead
    (s.trimPasses sc i r k = true ↔
      (run + c.setup.f - 1) / c.setup.f + pre + a.setup.margin ≤
        (a.trim - a.consumed) * 256 / (a.setup.b * a.setup.inom))

/-- R118, R53 to R58, R62, R63, R124: the arming evaluation, here the one of an accepted SET TRIM. In SHOWING, with no
entry ARMED, a next reel that is CONFIRMED on a STOPPED transport with a lamp not FAILED is armed when its trim test
passes, or short under the RUN policy: count 0, run length Lp. Before the motor cue a DARK lamp whose strike is not
yet due gets the strike frame Fc − S × f; after it the arming is late, and the motor is commanded on and a DARK lamp
struck at once; after the changeover cue the cold-start case arms it and does nothing further. Under HOLD a reel whose
trim is short is held back and reported once. Outside SHOWING, INTERVAL and GAP no evaluation is made; in INTERVAL and
GAP the candidate is armed by the cold-start case, its lamp left as it is. (Of strikes, the accepted ones; that the
lamp is STRIKING in the SHC's own step, R59 and R63 saying that a STRIKE request is sent, is the model's reading, log
entry 5.) -/
def Obligations.EvaluationArmsOrHoldsBack : Prop :=
  (∀ (p : Proj) (i fc n j : Nat) (out q : Reel) (s : State),
     let x := Instr.setTrimAccepted p
     let sc := p.screen
     let c := s.shc.get sc
     let u := sc.proj q.side
     let lamp := s.alc.get u
     c.state = .showing → c.holding .onScreen = some (i, out) → out.fc = fc →
     (s.trm.get (sc.proj out.side)).count = n → c.next i = .reel j q → s.bsu.fire = none →
     (c.entry j).state = .confirmed → (s.trm.get u).state = .stopped → lamp.state ≠ .failed →
     (out.side ≠ q.side) → c.holding .armed = none → (∀ k f, c.next j ≠ .fault k f) →
     let armed (short : Bool) (strikeFrame : Option Nat) : Shc :=
       { c.modEntry c.active j (fun e => { e with state := .armed, short := short }) with
         trimHold := none, strikeFrame := strikeFrame }
     let told (short : Bool) : Cnl :=
       s.cnl.raise ⟨s.bck.time, .entry sc c.active j u q.title .armed short 0 none⟩
     let case_ : TrimCase := if c.progress = .changeoverFired then .coldStart else .changeover fc n
     (∀ short : Bool, s.trimPasses sc j q case_ = !short → (short = true → c.setup.policy = .run) →
       ∃ t, exec x s = .next t ∧ KeepsAllBut s t [.events, .cnl, .shc sc, .trm u, .alc u] ∧
       t.trm.get u = { s.trm.get u with count := 0, runLength := some q.lp } ∧
       (c.progress = .none →
         let due := fc - lamp.setup.lead * c.setup.f
         (lamp.state = .dark → n < due → t.shc.get sc = armed short (some due) ∧
           t.alc.get u = lamp ∧ t.events = s.events.erase x ∧ t.cnl = told short) ∧
         (lamp.state.lit = true → t.shc.get sc = armed short none ∧
           t.alc.get u = lamp ∧ t.events = s.events.erase x ∧ t.cnl = told short) ∧
         (lamp.state = .dark → due ≤ n → lamp.remaining ≠ 0 → s.bsu.proven = true →
           t.shc.get sc = armed short none ∧ (t.alc.get u).state = .striking)) ∧
       (c.progress = .motorFired →
         (lamp.state.lit = true → t.shc.get sc = (armed short c.strikeFrame).setMotor q.side true ∧
           t.alc.get u = lamp ∧ t.events = s.events.erase x ++ [.motorOnCommand u] ∧ t.cnl = told short) ∧
         (lamp.state = .dark → lamp.remaining ≠ 0 → s.bsu.proven = true →
           t.shc.get sc = (armed short none).setMotor q.side true ∧ (t.alc.get u).state = .striking ∧
           t.events = s.events.erase x ++ [.motorOnCommand u, .lampStateChange u .striking .dark .struck])) ∧
       (c.progress = .changeoverFired → t.shc.get sc = armed short c.strikeFrame ∧ t.alc.get u = lamp ∧
         t.events = s.events.erase x ∧ t.cnl = told short)) ∧
     (s.trimPasses sc j q case_ = false → c.setup.policy = .hold →
       (c.trimHold = some j → exec x s = .next (s.taken x)) ∧
       (c.trimHold ≠ some j → exec x s = .next { s with
         events := s.events.erase x
         shc := s.shc.set sc { c with trimHold := some j }
         cnl := s.cnl.raise ⟨s.bck.time, .entry sc c.active j u q.title .trimShort false (s.trm.get u).count none⟩ }))) ∧
  (∀ (p : Proj) (j : Nat) (q : Reel) (s : State),
     let x := Instr.setTrimAccepted p
     let sc := p.screen
     let c := s.shc.get sc
     let u := sc.proj q.side
     ((c.state = .idle ∨ c.state = .preparing ∨ c.state = .ending ∨ c.state = .halted) →
       exec x s = .next (s.taken x)) ∧
     (∀ short : Bool, (c.state = .interval ∨ c.state = .gap) → c.next c.current = .reel j q → s.bsu.fire = none →
       (c.entry j).state = .confirmed → (s.trm.get u).state = .stopped → (s.alc.get u).state ≠ .failed →
       (∀ k f, c.next j ≠ .fault k f) → s.trimPasses sc j q .coldStart = !short →
       (short = true → c.setup.policy = .run) →
       exec x s = .next { s with
         events := s.events.erase x
         shc := s.shc.set sc
           { c.modEntry c.active j (fun e => { e with state := .armed, short := short }) with trimHold := none }
         trm := s.trm.set u { s.trm.get u with count := 0, runLength := some q.lp }
         cnl := s.cnl.raise ⟨s.bck.time, .entry sc c.active j u q.title .armed short 0 none⟩ }))

/-- R59, R60, R61, R62, R64 to R67: the motor cue of the ON_SCREEN entry: MOTOR FIRED, the TRM's window closed and the
changeover cue window opened; an ARMED incoming whose motor is off is started, and its DARK or FAILED lamp struck, a
refused strike being told by an ENTRY notice STRIKE REFUSED with the lamp's reason. With the count already at the last
frame of the changeover window the SHC fires that cue itself, as a counted cue with its CUE notice, and acts on it in
the same event: before an INTERVAL or the END the reel runs on, an ARMED next reel that is ready is changed over to,
one that is not is stood down, and with none ARMED the changeover is missed. A cue that finds the screen not SHOWING,
or another projector's, is not acted on. Before an INTERVAL or the END nothing is said of an ARMED entry. (That the
strike and its refusal are of the SHC's own step, R62 saying that a STRIKE request is sent, is the model's reading,
log entry 5; that the incoming's motor is on or off is the SHC's own last command, log entry 7; the window's close
event is log entry 17.) -/
def Obligations.MotorCueStartsTheIncoming : Prop :=
  ∀ (p : Proj) (how : FiredAs) (count : Nat) (s : State),
    let x := Instr.cueFiredEvent p .motor how count
    let sc := p.screen
    let c := s.shc.get sc
    (∀ (i : Nat) (r : Reel), c.state = .showing → c.holding .onScreen = some (i, r) → r.side = p.side →
      c.holdingOn .onScreen p.side = some (i, r) →
      (s.trm.get p).count < (match c.setup.cueMode with | .counted => r.fc | .sensed => r.fc + c.setup.w) →
      let opened : List Instr := s.events.erase x ++ [.cueWindowClose p, .cueWindowOpen p .changeover r.fc]
      (c.holding .armed = none → exec x s = .next { s with
        events := opened, shc := s.shc.set sc { c with progress := .motorFired } }) ∧
      (∀ (j : Nat) (q : Reel), c.holding .armed = some (j, q) →
        (c.motor q.side = true → exec x s = .next { s with
          events := opened, shc := s.shc.set sc { c with progress := .motorFired } }) ∧
        (c.motor q.side = false →
          let d : Shc := ({ c with progress := .motorFired } : Shc).setMotor q.side true
          let u := sc.proj q.side
          let lamp := s.alc.get u
          (lamp.state.lit = true → exec x s = .next { s with
            events := opened ++ [.motorOnCommand u], shc := s.shc.set sc d }) ∧
          (lamp.state = .dark ∨ lamp.state = .failed →
            (lamp.remaining ≠ 0 → s.bsu.proven = true → s.bsu.fire = none → ∃ t, exec x s = .next t ∧
              KeepsAllBut s t [.events, .cnl, .shc sc, .alc u] ∧
              t.events = opened ++ [.motorOnCommand u, .lampStateChange u .striking lamp.state .struck] ∧
              t.shc.get sc = { d with strikeFrame := none } ∧ (t.alc.get u).state = .striking) ∧
            (∀ why : NotReady,
              ((why = .noTrim ∧ lamp.remaining = 0) ∨
                (why = .exhaust ∧ lamp.remaining ≠ 0 ∧ s.bsu.proven = false) ∨
                (why = .fireLock ∧ lamp.remaining ≠ 0 ∧ s.bsu.proven = true ∧ s.bsu.fire.isSome = true)) →
              exec x s = .next { s with
                events := opened ++ [.motorOnCommand u]
                shc := s.shc.set sc { d with strikeFrame := none }
                cnl := s.cnl.raise ⟨s.bck.time, .entry sc c.active j u q.title .strikeRefused (c.entry j).short
                  (s.trm.get u).count (some why)⟩ }))))) ∧
    (∀ (i : Nat) (r : Reel), c.state = .showing → c.holding .onScreen = some (i, r) → r.side = p.side →
      c.holdingOn .onScreen p.side = some (i, r) →
      (match c.setup.cueMode with | .counted => r.fc | .sensed => r.fc + c.setup.w) ≤ (s.trm.get p).count →
      let nOut := (s.trm.get p).count
      let closed : List Instr := s.events.erase x ++ [.cueWindowClose p]
      let fired : Shc := { c with progress := .changeoverFired }
      let cue : Notice := ⟨s.bck.time,
        .cue sc p .changeover .counted r.fc nOut (max (-96) (min 96 ((nOut : Int) - (r.fc : Int))))⟩
      ((c.next i = .finish ∨ ∃ k d w, c.next i = .interval k d w) → c.holding .armed = none →
        exec x s = .next { s with events := closed, shc := s.shc.set sc fired, cnl := s.cnl.raise cue }) ∧
      (∀ (j : Nat) (q : Reel), c.next i = .reel j q → c.holding .armed = none → (c.entry j).state ≠ .armed →
        exec x s = .next { s with
          events := closed, shc := s.shc.set sc { fired with strikeFrame := none }
          cnl := (s.cnl.raise cue).raise ⟨s.bck.time,
            .changeover sc false .counted (some .notArmed) i r.title nOut none 0 0 0⟩ }) ∧
      (∀ (j : Nat) (q : Reel), c.next i = .reel j q → c.holding .armed = some (j, q) →
        (∀ k, (c.entry k).state = .armed → k = j) → (c.entry j).state = .armed →
        let u := sc.proj q.side
        (∀ why : NotReady,
          ((why = .transport ∧ (s.trm.get u).state ≠ .atSpeed) ∨
            (why = .lamp ∧ (s.trm.get u).state = .atSpeed ∧ (s.alc.get u).state ≠ .stable) ∨
            (why = .shutter ∧ (s.trm.get u).state = .atSpeed ∧ (s.alc.get u).state = .stable ∧
              (s.bsu.shutters.get u).state ≠ .raised) ∨
            (why = .veto ∧ (s.trm.get u).state = .atSpeed ∧ (s.alc.get u).state = .stable ∧
              (s.bsu.shutters.get u).state = .raised ∧ (s.bsu.vetoes.get u).isSome = true)) →
          exec x s = .next { s with
            events := closed ++ (if c.motor q.side then [.motorStop u] else [])
            shc := s.shc.set sc { (fired.setMotor q.side false).modEntry c.active j (fun e =>
              { e with state := .loaded, short := false }) with strikeFrame := none }
            cnl := (s.cnl.raise cue).raise ⟨s.bck.time, .changeover sc false .counted (some why) i r.title nOut
              (some j) q.title (s.trm.get u).count 0⟩ }) ∧
        ((s.trm.get u).state = .atSpeed → (s.alc.get u).state = .stable → (s.bsu.shutters.get u).state = .raised →
          s.bsu.vetoes.get u = none → q.side = p.side.other → (∀ k, (c.entry k).state = .onScreen → k = i) →
          (s.trm.get u).count < q.fm →
          ∃ t, exec x s = .next t ∧ KeepsAllBut s t (screenParts sc) ∧
            (let d := t.shc.get sc
             d.state = .showing ∧ d.douser r.side = false ∧ d.douser q.side = true ∧ d.sound = q.side ∧
             d.muted = false ∧ d.current = j ∧ d.progress = .none ∧ (d.entry j).state = .onScreen ∧
             (d.entry i).state = .runningOut ∧ .cueWindowOpen u .motor q.fm ∈ t.events ∧
             Told (s.cnl.raise cue) t.cnl ⟨s.bck.time, .changeover sc true .counted none i r.title nOut (some j) q.title
               (s.trm.get u).count (((s.trm.get u).count : Int) - (c.setup.l0 : Int))⟩)))) ∧
    (c.state ≠ .showing ∨ c.holdingOn .onScreen p.side = none → exec x s = .next (s.taken x))

/-- R64, R65, R66, R69: the changeover, at a changeover cue that finds the next reel ARMED and ready and at a CHANGE
NOW: in one event the outgoing douser command closes and the incoming opens, the sound moves, the incoming is
ON_SCREEN and the outgoing RUNNING_OUT, the current index moves, cue progress is NONE, the service record passes to
the incoming lamp, the outgoing cue window is closed, and the CHANGEOVER notice gives the slip. -/
def Obligations.ChangeoverPassesThePicture : Prop :=
  ∀ (p : Proj) (how : FiredAs) (count : Nat) (tag screen : Byte) (i j : Nat) (r q : Reel) (s : State),
    let sc := p.screen
    let c := s.shc.get sc
    let u := sc.proj q.side
    let nIn := (s.trm.get u).count
    c.state = .showing → c.holding .onScreen = some (i, r) → r.side = p.side →
    (∀ k, (c.entry k).state = .onScreen → k = i) → c.holding .armed = some (j, q) → q.side = p.side.other →
    (s.trm.get u).state = .atSpeed → (s.alc.get u).state = .stable → (s.bsu.shutters.get u).state = .raised →
    s.bsu.vetoes.get u = none → nIn < q.fm → screen.toNat = sc.num →
    let passed (t : State) (x : Instr) (how : FiredAs) : Prop :=
      let d := t.shc.get sc
      KeepsAllBut s t (screenParts sc) ∧ d.state = .showing ∧ d.douser r.side = false ∧ d.douser q.side = true ∧
      d.sound = q.side ∧ d.muted = false ∧ d.current = j ∧ d.progress = .none ∧
      (d.entry j).state = .onScreen ∧ (d.entry i).state = .runningOut ∧
      (t.alc.get p).service = none ∧
      (t.alc.get u).service = some ⟨sc, c.active, j, q.title, c.runFrames j q, c.setup.f, false⟩ ∧
      .cueWindowClose p ∈ t.events ∧ .cueWindowOpen u .motor q.fm ∈ t.events ∧
      ∃ before after : List Notice, ∃ base : Cnl, base = (before ++ [(⟨s.bck.time,
          .changeover sc true how none i r.title (s.trm.get p).count (some j) q.title nIn
            ((nIn : Int) - (c.setup.l0 : Int))⟩ : Notice)] ++ after).foldl Cnl.raise s.cnl ∧
        t.cnl = (if x = .changeNow tag screen then base.fill ⟨0xB3, tag, .done, none, []⟩ else base)
    (c.next i = .reel j q → (how = .sensed ∨ how = .counted) →
      ∃ t, exec (.cueFiredEvent p .changeover how count) s = .next t ∧
        passed t (.cueFiredEvent p .changeover how count) how) ∧
    (∃ t, exec (.changeNow tag screen) s = .next t ∧ passed t (.changeNow tag screen) .console)

/-- R64, R65, R67: the changeover cue that makes no changeover. Before an INTERVAL or the END the reel runs on. An
ARMED next reel that is not ready is stood down: the first of TRANSPORT, LAMP, SHUTTER and VETO is reported MISSED,
its motor is commanded off if it was on, and it is LOADED; with no ARMED reel the reason is NOT ARMED. The picture
stays on the outgoing projector, and no lamp is touched. (That its motor was on is the SHC's own last command, log entry
7; the window's close event is log entry 17.) -/
def Obligations.MissedChangeoverStandsTheReelDown : Prop :=
  ∀ (p : Proj) (how : FiredAs) (count i : Nat) (r : Reel) (s : State),
    let x := Instr.cueFiredEvent p .changeover how count
    let sc := p.screen
    let c := s.shc.get sc
    let nOut := (s.trm.get p).count
    c.state = .showing → c.holdingOn .onScreen p.side = some (i, r) → r.side = p.side →
    let closed : List Instr := s.events.erase x ++ [.cueWindowClose p]
    let fired : Shc := { c with progress := .changeoverFired }
    ((c.next i = .finish ∨ ∃ k d w, c.next i = .interval k d w) → exec x s = .next { s with
      events := closed, shc := s.shc.set sc fired }) ∧
    (∀ (j : Nat) (q : Reel), c.next i = .reel j q → c.holding .armed = some (j, q) →
      (c.entry j).state = .armed →
      let u := sc.proj q.side
      ∀ why : NotReady,
        ((why = .transport ∧ (s.trm.get u).state ≠ .atSpeed) ∨
          (why = .lamp ∧ (s.trm.get u).state = .atSpeed ∧ (s.alc.get u).state ≠ .stable) ∨
          (why = .shutter ∧ (s.trm.get u).state = .atSpeed ∧ (s.alc.get u).state = .stable ∧
            (s.bsu.shutters.get u).state ≠ .raised) ∨
          (why = .veto ∧ (s.trm.get u).state = .atSpeed ∧ (s.alc.get u).state = .stable ∧
            (s.bsu.shutters.get u).state = .raised ∧ (s.bsu.vetoes.get u).isSome = true)) →
        exec x s = .next { s with
          events := closed ++ (if c.motor q.side then [.motorStop u] else [])
          shc := s.shc.set sc { (fired.setMotor q.side false).modEntry c.active j (fun e =>
            { e with state := .loaded, short := false }) with strikeFrame := none }
          cnl := s.cnl.raise ⟨s.bck.time, .changeover sc false how (some why) i r.title nOut (some j) q.title
            (s.trm.get u).count 0⟩ }) ∧
    (∀ (j : Nat) (q : Reel), c.next i = .reel j q → (c.entry j).state ≠ .armed → c.holding .armed = none →
      exec x s = .next { s with
        events := closed, shc := s.shc.set sc { fired with strikeFrame := none }
        cnl := s.cnl.raise ⟨s.bck.time, .changeover sc false how (some .notArmed) i r.title nOut none 0 0 0⟩ })

/-- 00_scope, R25, R33, R78, R99: an event of one screen's SHC changes nothing of another screen, of the Booth Clock,
of the house lights' records, of the mains tracker, of booth safety or of the pins; of the booth's shared blocks it
changes the Console Link alone, and of its record the reply queue with its reserved places and the notice queue with its
lost count, which take its reply and its notices. -/
def Obligations.ScreensDoNotDisturbOneAnother : Prop :=
  ∀ (sc : Screen) (p : Proj) (s t : State) (i : Instr), p.screen = sc →
    ((∃ time, i = .boothSecondEvent sc time) ∨ (∃ old new, i = .clockSetEvent sc old new) ∨
      (∃ n, i = .atSpeedEvent p n) ∨ (∃ cue how n, i = .cueFiredEvent p cue how n) ∨
      (∃ n, i = .pictureEndReached p n) ∨ (∃ n, i = .runoutReached p n) ∨ (∃ n, i = .runUpFail p n) ∨
      (∃ new old cause, i = .lampStateChange p new old cause) ∨ i = .setTrimAccepted p ∨
      (∃ kind n, i = .breakOrStallEvent p kind n) ∨ (∃ reason, i = .shutterDropped p reason) ∨
      i = .fireEvent sc ∨ i = .emergencyStopEvent sc ∨
      (∃ tag screen, screen.toNat = sc.num ∧ (i = .start tag screen ∨ i = .resume tag screen ∨
        i = .abort tag screen ∨ i = .changeNow tag screen ∨ i = .clearStaged tag screen ∨
        i = .cancelSwitch tag screen ∨ (∃ x, i = .setScreen tag screen x) ∨
        (∃ t0 tc np, i = .switchProgramme tag screen t0 tc np) ∨
        (∃ index kind area, i = .writeEntry tag screen index kind area) ∨
        (∃ bank index confirm, i = .confirmReel tag screen bank index confirm) ∨
        (∃ bank index, i = .withdrawConfirmation tag screen bank index)))) →
    exec i s = .next t → KeepsAllBut s t (screenParts sc) ∧ SameLine s.cnl t.cnl

/-! ## Chapter 4: transports and cue detection -/

/-- R78, R79, R82 to R85, R162: a motor stop puts a running transport STOPPED and closes its window; a motor-on
command starts a STOPPED transport, with a film break at once if the loop switch does not read CLOSED; under the motor
hold the command is not taken and the refused start goes to the BSU (that the SHC's own motor command then follows the
TRM's is the model's choice, log entry 7). An opening edge of the loop switch with the motor on is a film break below
the run length and the runout at or beyond it; with the motor off, and at a closing edge, the level is recorded alone.
The run-up timer running out in RUN_UP is a run-up fail, the stall timer running out in AT_SPEED a stall; a stopped
timer does not run out. (A film break of a transport that has no run length is the model's choice, log entry 18, as are
the pin and the samples that stand behind an edge given as a command, log entry 23, and an edge of an unsettled input,
log entry 20.) -/
def Obligations.TransportsStartAndStop : Prop :=
  (∀ (p : Proj) (s : State),
     let t := s.trm.get p
     let on := Instr.motorOnCommand p
     let off := Instr.motorStop p
     (t.state = .stopped → exec off s = .next (s.taken off)) ∧
     (t.state ≠ .stopped → exec off s = .next { s with
       events := s.events.erase off
       trm := s.trm.set p { t with
         motor := false, state := .stopped, runUpTimer := false, stallTimer := false, goodRun := 0,
         window := none } }) ∧
     (s.bsu.fire = none → s.bsu.estop = none →
       (t.state ≠ .stopped → exec on s = .next (s.taken on)) ∧
       (t.state = .stopped → exec on s = .next { s with
         events := s.events.erase on ++ (if t.loopClosed = some true then [] else [.filmBreak p t.count])
         trm := s.trm.set p { t with
           motor := true, state := .runUp, goodRun := 0, lastPeriod := none, lastPulse := none, runUpTimer := true,
           stallTimer := false } })) ∧
     (s.bsu.fire.isSome = true ∨ s.bsu.estop.isSome = true → exec on s = .next { s with
       events := s.events.erase on ++ [.refusedStart p]
       shc := s.shc.set p.screen ((s.shc.get p.screen).setMotor p.side t.motor) })) ∧
  (∀ (p : Proj) (s : State),
     let t := s.trm.get p
     let stopped (u : Trm) : Trm := { u with
       motor := false, state := .stopped, runUpTimer := false, stallTimer := false, goodRun := 0, window := none }
     let pin (level : Bool) : State := { s with pins := s.pins.setLevel level (.loopSwitch p) }
     let opened : Trm := { t with loopClosed := some false, loopSamples := [true, false, false] }
     (t.motor = false → exec (.loopOpeningEdge p) s = .next { pin false with trm := s.trm.set p opened }) ∧
     (t.motor = true → (∀ l, t.runLength = some l → t.count < l) → exec (.loopOpeningEdge p) s =
       .next { pin false with trm := s.trm.set p opened, events := s.events ++ [.filmBreak p t.count] }) ∧
     (∀ l, t.motor = true → t.state ≠ .stopped → t.runLength = some l → l ≤ t.count → exec (.loopOpeningEdge p) s =
       .next { pin false with
         trm := s.trm.set p (stopped opened), events := s.events ++ [.runoutReached p t.count] }) ∧
     exec (.loopClosingEdge p) s = .next { pin true with
       trm := s.trm.set p { t with loopClosed := some true, loopSamples := [false, true, true] } } ∧
     (t.runUpTimer = true → t.state = .runUp → exec (.runUpTimerExpiry p) s =
       .next { s with trm := s.trm.set p (stopped t), events := s.events ++ [.runUpFail p t.count] }) ∧
     (t.runUpTimer = false → exec (.runUpTimerExpiry p) s = .next s) ∧
     (t.stallTimer = true → t.state = .atSpeed → exec (.stallTimerExpiry p) s =
       .next { s with trm := s.trm.set p (stopped t), events := s.events ++ [.stall p t.count] }) ∧
     (t.stallTimer = false → exec (.stallTimerExpiry p) s = .next s))

/-- R88, R90, R91, R92, R75: a window opens with the screen's half-width and mode, or fires at once when its last frame
has been reached; a close request closes it; a mark edge in a SENSED window's span fires it, and one that fires nothing
is stray while the motor command is on. (The pin and the samples behind an edge given as a command: log entry 23; an
edge of an unsettled input: log entry 20.) -/
def Obligations.CueWindowsOpenFireAndClose : Prop :=
  ∀ (p : Proj) (cue : Cue) (centre : Nat) (s : State),
    let t := s.trm.get p
    let x := (s.shc.get p.screen).setup
    let n := t.count
    let opening := Instr.cueWindowOpen p cue centre
    let closing := Instr.cueWindowClose p
    let last := match x.cueMode with | .counted => centre | .sensed => centre + x.w
    let pin (level : Bool) : State := { s with pins := s.pins.setLevel level (.cueSensor p) }
    let seen : Trm := { t with cueMark := some true, cueSamples := [false, true, true] }
    let fired (b : State) (es : List Instr) (u : Trm) (cue : Cue) (how : FiredAs) (centre : Nat) : State := { b with
      events := es ++ [.cueFiredEvent p cue how n]
      trm := s.trm.set p { u with window := none }
      cnl := s.cnl.raise ⟨s.bck.time,
        .cue p.screen p cue how centre n (max (-96) (min 96 ((n : Int) - (centre : Int))))⟩ }
    (n < last → exec opening s = .next { s with
      events := s.events.erase opening
      trm := s.trm.set p { t with window := some ⟨cue, centre, x.w, x.cueMode⟩ } }) ∧
    (last ≤ n → exec opening s = .next (fired s (s.events.erase opening) t cue .counted centre)) ∧
    exec closing s = .next { s with
      events := s.events.erase closing, trm := s.trm.set p { t with window := none } } ∧
    (∀ w : CueWindow, t.window = some w → w.mode = .sensed → w.centre ≤ n + w.w → n < w.centre + w.w →
      exec (.markEdge p) s = .next (fired (pin true) s.events seen w.cue .sensed w.centre)) ∧
    (t.window = none ∨ (∃ w, t.window = some w ∧ (w.mode = .counted ∨ n + w.w < w.centre)) →
      (t.motor = true → exec (.markEdge p) s = .next { pin true with
        trm := s.trm.set p { seen with
          stray := min 255 (t.stray + 1), strayOverflow := t.strayOverflow || decide (t.stray = 255) } }) ∧
      (t.motor = false → exec (.markEdge p) s = .next { pin true with trm := s.trm.set p seen })) ∧
    exec (.cueSensorClearEdge p) s = .next { pin false with
      trm := s.trm.set p { t with cueMark := some false, cueSamples := [true, false, false] } }

/-- R80, R81, R86, R87, R89, R77, R32, R34, R59: a tach pulse. With the motor off it does nothing. With it on, the
count rises by 1 below the stop limit; the period from the pulse before is kept; the twelfth good period in a row
makes AT_SPEED; a window whose last frame is reached fires as counted; picture end is raised at the run length; at the
stop limit the motor is stopped and runout reached is raised; and nothing outside the projector's screen changes. What
the SHC does within the pulse, at the advance of the count: at L0 or beyond the picture of an AT_SPEED reel in
PREPARING goes on; a lighting point of the ON_SCREEN reel is posted at its frame; and at the strike frame the strike
of the incoming lamp is made. (Where the SHC's part stands in the pulse, and what the count reads with no run length,
are log entries 13 and 18; that a period is the difference of the times the pulses carry is log entry 4; that the lamp
is STRIKING in the pulse's own step, R59 saying that the SHC sends a STRIKE request, is log entry 5.) -/
def Obligations.TachPulseCountsOneFrame : Prop :=
  (∀ (p : Proj) (time : Nat) (s : State),
     let t := s.trm.get p
     let x := (s.shc.get p.screen).setup
     let limit := t.runLength.map fun l => min 65535 (l + x.allowance)
     let rises : Prop := t.count < limit.getD 65535
     (t.motor = false → exec (.tachPulse p time) s = .next s) ∧
     (t.motor = true → t.state ≠ .stopped → ∃ u es, exec (.tachPulse p time) s = .next u ∧
       KeepsAllBut s u (screenParts p.screen) ∧ Noted s.cnl u.cnl ∧ u.events = s.events ++ es ∧
       (let v := u.trm.get p
        (rises → v.count = t.count + 1) ∧ (¬rises → v.count = t.count) ∧
        v.lastPulse = some time ∧ v.runLength = t.runLength ∧ v.stray = t.stray ∧ v.loopClosed = t.loopClosed ∧
        (∀ z, t.lastPulse = some z → v.lastPeriod = some (min 65535 (time - z))) ∧
        (t.lastPulse = none → v.lastPeriod = t.lastPeriod) ∧
        (∀ l, limit = some l → l ≤ v.count →
         v.state = .stopped ∧ v.motor = false ∧ v.window = none ∧ .runoutReached p v.count ∈ es) ∧
        ((∀ l, limit = some l → v.count < l) →
         v.motor = true ∧
         (t.state = .atSpeed → v.state = .atSpeed ∧ v.stallTimer = true) ∧
         (∀ z, t.state = .runUp → t.lastPulse = some z →
           (960000 ≤ (time - z) * x.f ∧ (time - z) * x.f ≤ 1040000 →
             (t.goodRun + 1 < 12 → v.state = .runUp ∧ v.goodRun = t.goodRun + 1) ∧
             (12 ≤ t.goodRun + 1 → v.state = .atSpeed ∧ v.goodRun = 12 ∧ v.runUpTimer = false ∧ v.stallTimer = true ∧
               .atSpeedEvent p v.count ∈ es)) ∧
           (¬(960000 ≤ (time - z) * x.f ∧ (time - z) * x.f ≤ 1040000) → v.state = .runUp ∧ v.goodRun = 0)) ∧
         (t.state = .runUp → t.lastPulse = none → v.state = .runUp ∧ v.goodRun = t.goodRun)) ∧
        (rises → t.runLength = some v.count → .pictureEndReached p v.count ∈ es ∧ v.window = none) ∧
        (rises → ∀ w, t.window = some w → v.count = (match w.mode with | .counted => w.centre | .sensed => w.centre + w.w) →
         .cueFiredEvent p w.cue .counted v.count ∈ es ∧ v.window = none)))) ∧
  (∀ (p : Proj) (time : Nat) (s : State),
     let t := s.trm.get p
     let sc := p.screen
     let c := s.shc.get sc
     let n := t.count + 1
     t.motor = true → t.state = .atSpeed → n ≤ 65535 → t.runLength = none ∨ (∃ l, t.runLength = some l ∧ n ≤ l) →
     ∃ u es, exec (.tachPulse p time) s = .next u ∧ u.events = s.events ++ es ∧
       (∀ r : Reel, c.state = .preparing → (c.entry c.current).kind = .reel r → r.side = p.side → c.prep ≠ .resume →
         c.setup.l0 ≤ n →
         (n < r.fm → c.holding .onScreen = none → (s.bsu.shutters.get p).state = .raised → s.bsu.vetoes.get p = none →
           (u.shc.get sc).state = .showing ∧ (u.shc.get sc).douser p.side = true) ∧
         ((s.bsu.shutters.get p).state ≠ .raised ∨ (s.bsu.vetoes.get p).isSome = true →
           (u.shc.get sc).state = .halted)) ∧
       (∀ (i : Nat) (r : Reel) (q : LightPoint), c.state = .showing → c.holdingOn .onScreen p.side = some (i, r) →
         (r.points.filter fun y => y.offset = n).getLast? = some q → .post sc .show_ q.preset ∈ es) ∧
       (∀ (i f j : Nat) (r q : Reel), c.state = .showing → c.holdingOn .onScreen p.side = some (i, r) →
         c.strikeFrame = some f → f ≤ n → c.holding .armed = some (j, q) →
         (u.shc.get sc).strikeFrame = none ∧
         ((s.alc.get (sc.proj q.side)).state = .dark → (s.alc.get (sc.proj q.side)).remaining ≠ 0 →
           s.bsu.proven = true → s.bsu.fire = none → (u.alc.get (sc.proj q.side)).state = .striking)) ∧
       (∀ (i f : Nat) (r : Reel), c.state = .showing → c.holdingOn .onScreen p.side = some (i, r) →
         c.strikeFrame = some f → n < f → u.shc.get sc = c))

/-! ## Chapters 5 and 6: arc lamps and trims -/

/-- R99, R100, R101, R103, R107, R108, R96: a STRIKE, from the console or from the SHC, is decided by the same checks
in their order; a refused one changes nothing; an accepted one puts the lamp STRIKING in its first attempt, with the
striker closed and both attempt timers running, and raises the lamp state change and the LAMP notice with cause
STRUCK. An EXTINGUISH, from the console, the SHC or the BSU, puts a lamp that is not DARK out in one event, with its
cause; a DARK lamp is not changed; the trim record is kept. The striker timer opens the striker; the attempt timer
begins a cool-off below the attempt limit in force, with the striker open (the model's reading of R96, log entry 21;
that the SHC's request is decided as it is asked is log entry 5), and at the limit makes the lamp FAILED; the cool-off
timer begins the next attempt; a stopped timer does not run out. -/
def Obligations.LampsAreStruckAndPutOut : Prop :=
  (∀ (tag lamp : Byte) (s : State),
     let x := Instr.strike (.console tag lamp)
     let answer (c : Cnl) (r : Result) : Cnl := c.fill ⟨0xB8, tag, r, none, []⟩
     (¬(1 ≤ lamp.toNat ∧ lamp.toNat ≤ 8) →
       exec x s = .next { s with events := s.events.erase x, cnl := answer s.cnl .noSuch }) ∧
     (∀ p : Proj, lamp.toNat = p.num →
       let a := s.alc.get p
       let y := Instr.strike (.shc p)
       let refusal : Option Result :=
         if a.state = .striking ∨ a.state = .warming ∨ a.state = .stable then some .already
         else if a.trim - a.consumed = 0 then some (.notReady .noTrim)
         else if s.bsu.proven = false then some (.notReady .exhaust)
         else if s.bsu.fire.isSome then some .fireLock
         else none
       (∀ r, refusal = some r →
         exec x s = .next { s with events := s.events.erase x, cnl := answer s.cnl r } ∧
         exec y s = .next (s.taken y)) ∧
       (refusal = none →
         let begun (i : Instr) (c : Cnl) : State := { s with
           events := s.events.erase i ++ [.lampStateChange p .striking a.state .struck]
           alc := s.alc.set p { a with
             state := .striking, lastCause := .struck, withheld := none, attempts := 1, limitInForce := a.setup.limit,
             phase := .attempt, goodRun := 0, inBand := 0, lowRun := 0, acc := 0, strikerTimer := true,
             attemptTimer := true, coolOffTimer := false }
           cnl := c }
         let told := s.cnl.raise
           ⟨s.bck.time, .lamp p .striking a.state .struck none none a.vm a.im (a.trim - a.consumed)⟩
         exec x s = .next (begun x (answer told .accepted)) ∧ exec y s = .next (begun y told)))) ∧
  (∀ (tag lamp : Byte) (why : BsuReason) (s : State),
     let x := Instr.extinguish (.console tag lamp)
     let answer (c : Cnl) (r : Result) : Cnl := c.fill ⟨0xB9, tag, r, none, []⟩
     (¬(1 ≤ lamp.toNat ∧ lamp.toNat ≤ 8) →
       exec x s = .next { s with events := s.events.erase x, cnl := answer s.cnl .noSuch }) ∧
     (∀ p : Proj, lamp.toNat = p.num →
       let a := s.alc.get p
       let y := Instr.extinguish (.shc p)
       let z := Instr.bsuExtinguish p why
       let cause : LampCause := match why with | .fire => .fire | .exhaust => .exhaust
       (a.state = .dark →
         exec x s = .next { s with events := s.events.erase x, cnl := answer s.cnl .already } ∧
         exec y s = .next (s.taken y) ∧ exec z s = .next (s.taken z)) ∧
       (a.state ≠ .dark →
         let out (i : Instr) (cause : LampCause) (c : Cnl) : State := { s with
           events := s.events.erase i ++ [.lampStateChange p .dark a.state cause]
           alc := s.alc.set p { a with
             state := .dark, lastCause := cause, strikerTimer := false, attemptTimer := false, coolOffTimer := false }
           cnl := c }
         let told (cause : LampCause) := s.cnl.raise
           ⟨s.bck.time, .lamp p .dark a.state cause none none a.vm a.im (a.trim - a.consumed)⟩
         exec x s = .next (out x (.extinguished .console) (answer (told (.extinguished .console)) .done)) ∧
         exec y s = .next (out y (.extinguished .show_) (told (.extinguished .show_))) ∧
         exec z s = .next (out z cause (told cause))))) ∧
  (∀ (p : Proj) (s : State),
     let a := s.alc.get p
     let lamp (d : Alc) : State := { s with alc := s.alc.set p d }
     exec (.strikerTimerExpiry p) s = .next (lamp { a with strikerTimer := false }) ∧
     (a.attemptTimer = true → a.attempts < a.limitInForce → exec (.attemptTimerExpiry p) s =
       .next (lamp { a with
         strikerTimer := false, attemptTimer := false, phase := .coolOff, coolOffTimer := true })) ∧
     (a.attemptTimer = true → a.limitInForce ≤ a.attempts → exec (.attemptTimerExpiry p) s = .next { s with
       events := s.events ++ [.lampStateChange p .failed a.state .noStrike]
       alc := s.alc.set p { a with
         state := .failed, lastCause := .noStrike, strikerTimer := false, attemptTimer := false, coolOffTimer := false }
       cnl := s.cnl.raise ⟨s.bck.time,
         .lamp p .failed a.state .noStrike (some a.attempts) none a.vm a.im (a.trim - a.consumed)⟩ }) ∧
     (a.attemptTimer = false → exec (.attemptTimerExpiry p) s = .next s) ∧
     (a.coolOffTimer = true → exec (.coolOffTimerExpiry p) s = .next (lamp { a with
       attempts := a.attempts + 1, phase := .attempt, goodRun := 0, strikerTimer := true, attemptTimer := true,
       coolOffTimer := false })) ∧
     (a.coolOffTimer = false → exec (.coolOffTimerExpiry p) s = .next s))

/-- R97, R102, R105, R106: an arc sample is kept in every state, with no work in DARK, FAILED and COOL-OFF; the attempt
test counts good samples and the third in a row makes WARMING; the fifth low sample in a row in WARMING or STABLE loses
the arc, which is restruck or, where a condition withholds it, goes DARK. -/
def Obligations.ArcSampleTestsTheArc : Prop :=
  ∀ (p : Proj) (vm im : Nat) (s : State),
    let x := Instr.arcSample p vm im
    let a : Alc := { s.alc.get p with vm := min 1023 vm, im := min 255 im, steps := 0 }
    let left := a.trim - a.consumed
    let lamp (d : Alc) : State := { s with alc := s.alc.set p d }
    let moved (new : LampState) (cause : LampCause) (d : Alc) (attempts : Option Nat) (w : Option Withheld) : State :=
      { s with
        events := s.events ++ [.lampStateChange p new a.state cause]
        alc := s.alc.set p d
        cnl := s.cnl.raise ⟨s.bck.time, .lamp p new a.state cause attempts w a.vm a.im left⟩ }
    (a.state = .dark ∨ a.state = .failed ∨ (a.state = .striking ∧ a.phase = .coolOff) → exec x s = .next (lamp a)) ∧
    (a.state = .striking → a.phase = .attempt →
      (a.im < a.setup.imin → exec x s = .next (lamp { a with goodRun := 0 })) ∧
      (a.setup.imin ≤ a.im → a.goodRun < 2 → exec x s = .next (lamp { a with goodRun := a.goodRun + 1 })) ∧
      (a.setup.imin ≤ a.im → 2 ≤ a.goodRun → exec x s = .next (moved .warming .arcEstablished
        { a with state := .warming, lastCause := .arcEstablished, goodRun := 3, inBand := 0, lowRun := 0,
                 strikerTimer := false, attemptTimer := false, coolOffTimer := false } (some a.attempts) none))) ∧
    (a.state = .warming ∨ a.state = .stable → a.im < a.setup.imin → 4 ≤ a.lowRun →
      let withheld : Option Withheld :=
        if a.setup.auto = false then some .off
        else if left = 0 then some .noTrim
        else if s.bsu.proven = false then some .exhaust
        else if s.bsu.fire.isSome then some .fire
        else none
      (∀ w, withheld = some w → exec x s = .next (moved .dark .arcLost
        { a with state := .dark, lastCause := .arcLost, lowRun := a.lowRun + 1, withheld := some w,
                 strikerTimer := false, attemptTimer := false, coolOffTimer := false } none (some w))) ∧
      (withheld = none → exec x s = .next (moved .striking .arcLost
        { a with state := .striking, lastCause := .arcLost, withheld := none, attempts := 1,
                 limitInForce := a.setup.limit, phase := .attempt, goodRun := 0, inBand := 0, lowRun := 0, acc := 0,
                 strikerTimer := true, attemptTimer := true, coolOffTimer := false } none none)))

/-- R104, R109, R110, R111, R112, R127: a sample of a burning arc. The base feed is the accumulator and B × Im over 2,560;
the voltage error beyond the deadband corrects it; the steps are limited to 8 and to the remaining trim and counted in
C; TRIM LOW is raised once when the burn time no longer covers the entry; C at T is the trim out; and 200 samples in band
make WARMING STABLE. -/
def Obligations.FeedFollowsCurrentAndVoltage : Prop :=
  ∀ (p : Proj) (vm im : Nat) (s : State),
    let x := Instr.arcSample p vm im
    let a := s.alc.get p
    let v := min 1023 vm
    let i := min 255 im
    let y := a.setup
    let sum := a.acc + y.b * i
    let base := sum / 2560
    let wanted :=
      if y.vset + y.d < v then base + min 8 ((v - y.vset - y.d) * y.kf / 64)
      else if v + y.d < y.vset then base - min base ((y.vset - v - y.d) * y.kf / 64)
      else base
    let steps := min wanted (min 8 (a.trim - a.consumed))
    let out : Prop := 0 < steps ∧ a.consumed + steps = a.trim
    let inBand : Prop := v ≤ y.vset + y.band ∧ y.vset ≤ v + y.band
    (a.state = .warming ∨ a.state = .stable) → (y.imin ≤ i ∨ a.lowRun < 4) →
    ∃ u, exec x s = .next u ∧ KeepsAllBut s u [.events, .cnl, .alc p] ∧
      (let d := u.alc.get p
       d.vm = v ∧ d.im = i ∧ d.acc = sum % 2560 ∧ d.steps = steps ∧ d.consumed = a.consumed + steps ∧
       d.trim = a.trim ∧ d.setup = y ∧ d.lowRun = (if i < y.imin then a.lowRun + 1 else 0) ∧
       (out → d.state = .dark ∧ d.lastCause = .trimOut ∧
        u.events = s.events ++ [.lampStateChange p .dark a.state .trimOut]) ∧
       (¬out → a.state = .stable → d.state = .stable ∧ d.inBand = a.inBand ∧ u.events = s.events) ∧
       (¬out → a.state = .warming → inBand → 199 ≤ a.inBand → d.state = .stable ∧ d.lastCause = .stable ∧
        d.inBand = 200 ∧ u.events = s.events ++ [.lampStateChange p .stable .warming .stable]) ∧
       (¬out → a.state = .warming → inBand → a.inBand < 199 →
        d.state = .warming ∧ d.inBand = a.inBand + 1 ∧ u.events = s.events) ∧
       (¬out → a.state = .warming → ¬inBand → d.state = .warming ∧ d.inBand = 0 ∧ u.events = s.events) ∧
       (∀ r : ServiceRecord, a.service = some r →
        let n := (s.trm.get p).count
        let need := (r.runFrames - n + (r.f - 1)) / r.f + y.margin
        let avail := (a.trim - (a.consumed + steps)) * 256 / (y.b * y.inom)
        (0 < steps → avail < need → r.lowReported = false → d.service = some { r with lowReported := true } ∧
          Noted (s.cnl.raise ⟨s.bck.time, .trimLow r.screen p r.bank r.index r.title n r.runFrames avail need
            (a.trim - (a.consumed + steps))⟩) u.cnl) ∧
        (steps = 0 ∨ need ≤ avail ∨ r.lowReported = true → d.service = a.service)))

/-- R77, R79, R81, R82, R83, R95, R96, R101, R103, R109, R111, R112, R116: every step keeps every transport record legal:
the motor is off exactly in STOPPED, the run-up timer runs exactly in RUN_UP, the stall timer exactly in AT_SPEED, and
the counters keep their ranges; and every lamp record: no more trim is burnt than was fitted, a lit lamp has trim left,
the strike timers run in STRIKING alone, the attempts never exceed the limit in force. The contactor is closed exactly
in STRIKING, WARMING and STABLE, the striker only in STRIKING, and the feed stepper's direction is forward always. -/
def Obligations.TransportsAndLampsStayLegal : Prop :=
  (∀ (s t : State) (p : Proj), (s.trm.get p).Legal → step s = .next t → (t.trm.get p).Legal) ∧
  (∀ (s t : State) (p : Proj), (s.alc.get p).Legal → step s = .next t →
     let a := t.alc.get p
     a.Legal ∧ a.stepperForward = true ∧ (a.striker = true → a.state = .striking) ∧
     (a.contactor = true ↔ a.state = .striking ∨ a.state = .warming ∨ a.state = .stable))

/-! ## Chapter 7: house lights and the mains -/

/-- R133, R146: SET PRESET writes the four fields of one preset, the fade time clamped to 600, and SET AUDITORIUM the
aisle floor, clamped to 16 from below, the adjusted flag set where a field was clamped; an auditorium outside 1 to 4
or a preset outside 0 to 7 is refused NO SUCH; nothing else changes, whatever the state of the auditorium and the
booth. -/
def Obligations.PresetsAndFloorAreWritten : Prop :=
  (∀ (tag aud preset house aisle stage : Byte) (fade : Half) (s : State),
     let i := Instr.setPreset tag aud preset house aisle stage fade
     (¬(1 ≤ aud.toNat ∧ aud.toNat ≤ 4) ∨ 8 ≤ preset.toNat → exec i s = .next { s with
       events := s.events.erase i, cnl := s.cnl.fill ⟨0xA3, tag, .noSuch, some false, []⟩ }) ∧
     (∀ sc : Screen, aud.toNat = sc.num → preset.toNat < 8 → exec i s = .next { s with
       events := s.events.erase i
       hlc := s.hlc.set sc { s.hlc.get sc with
         presets := (s.hlc.get sc).presets.set preset.toNat
           ⟨house.toNat, aisle.toNat, stage.toNat, min 600 fade.toNat⟩ }
       cnl := s.cnl.fill ⟨0xA3, tag, .done, some (decide (600 < fade.toNat)), []⟩ })) ∧
  (∀ (tag aud floor : Byte) (s : State),
     let i := Instr.setAuditorium tag aud floor
     (¬(1 ≤ aud.toNat ∧ aud.toNat ≤ 4) → exec i s = .next { s with
       events := s.events.erase i, cnl := s.cnl.fill ⟨0xA2, tag, .noSuch, some false, []⟩ }) ∧
     (∀ sc : Screen, aud.toNat = sc.num → exec i s = .next { s with
       events := s.events.erase i
       hlc := s.hlc.set sc { s.hlc.get sc with floor := max 16 floor.toNat }
       cnl := s.cnl.fill ⟨0xA2, tag, .done, some (decide (floor.toNat < 16)), []⟩ }))

/-- R132, R134 to R138, R140 to R142: every write and release of a rank is arbitrated. POST copies the named
preset into the SHOW or HALT rank, HALT RELEASE empties HALT, the BSU's fire write and release fill and empty FIRE, SET
LIGHTS writes CONSOLE after its checks, and RELEASE LIGHTS empties it. The winner is the highest rank that holds a
request, FIRE before HALT before CONSOLE before SHOW (R134). -/
def Obligations.RanksAreWrittenReleasedAndArbitrated : Prop :=
  (∀ h : Hlc,
     (h.winner = some .fire ↔ h.fire.isSome = true) ∧
     (h.winner = some .halt ↔ h.fire = none ∧ h.halt.isSome = true) ∧
     (h.winner = some .console ↔ h.fire = none ∧ h.halt = none ∧ h.console.isSome = true) ∧
     (h.winner = some .show_ ↔ h.fire = none ∧ h.halt = none ∧ h.console = none ∧ h.show_.isSome = true) ∧
     (h.winner = none ↔ h.fire = none ∧ h.halt = none ∧ h.console = none ∧ h.show_ = none)) ∧
  (∀ (sc : Screen) (rank : ShowRank) (n : Nat) (y : Preset) (tag aud mode preset house aisle stage : Byte) (fade : Half)
    (s : State),
    let h := s.hlc.get sc
    let set := Instr.setLights tag aud mode preset house aisle stage fade
    let rel := Instr.releaseLights tag aud
    let refused (i : Instr) (kind : Byte) (r : Result) (adjusted : Option Bool) : State :=
      { s with events := s.events.erase i, cnl := s.cnl.fill ⟨kind, tag, r, adjusted, []⟩ }
    let asked (q : LightRequest) : Prop := ∃ u, RankChanged (s.taken set) u sc .console (some q) ∧
      exec set s = .next { u with cnl := u.cnl.fill ⟨0xC0, tag, .done, some (decide (600 < fade.toNat)), []⟩ }
    (h.presets[n]? = some y → ∃ t, exec (.post sc rank n) s = .next t ∧
      RankChanged (s.taken (.post sc rank n)) t sc (match rank with | .show_ => .show_ | .halt => .halt)
        (some ⟨y.house, y.aisle, y.stage, y.fade, .preset n⟩)) ∧
    (∃ t, exec (.haltRelease sc) s = .next t ∧ RankChanged (s.taken (.haltRelease sc)) t sc .halt none) ∧
    (∃ t, exec (.fireWrite sc) s = .next t ∧
      RankChanged (s.taken (.fireWrite sc)) t sc .fire (some ⟨255, 255, 255, 0, .alarm⟩)) ∧
    (∃ t, exec (.fireRelease sc) s = .next t ∧ RankChanged (s.taken (.fireRelease sc)) t sc .fire none) ∧
    (¬(1 ≤ aud.toNat ∧ aud.toNat ≤ 4) → exec set s = .next (refused set 0xC0 .noSuch (some false)) ∧
      exec rel s = .next (refused rel 0xC1 .noSuch none)) ∧
    (aud.toNat = sc.num →
      (mode ≠ 0 → mode ≠ 1 → exec set s = .next (refused set 0xC0 .badField (some false))) ∧
      (mode = 0 → 8 ≤ preset.toNat → exec set s = .next (refused set 0xC0 .noSuch (some false))) ∧
      (mode = 0 → preset.toNat < 8 → h.presets[preset.toNat]? = some y →
        asked ⟨y.house, y.aisle, y.stage, min 600 fade.toNat, .preset preset.toNat⟩) ∧
      (mode = 1 → asked ⟨house.toNat, aisle.toNat, stage.toNat, min 600 fade.toNat, .explicit⟩) ∧
      (h.console = none → exec rel s = .next (refused rel 0xC1 .already none)) ∧
      (h.console.isSome = true → ∃ u, RankChanged (s.taken rel) u sc .console none ∧
        exec rel s = .next { u with cnl := u.cnl.fill ⟨0xC1, tag, .done, none, []⟩ })))

/-- R143: over any number of fade ticks each channel's fine level stays between the level it had and the target, the
ticks remaining fall one by one, and at the last tick the level is the target; a finished fade takes no step; nothing
but the fade records changes. -/
def Obligations.FadeReachesItsTarget : Prop :=
  ∀ (sc : Screen) (n : Nat) (s : State), ∃ t, execAll (List.replicate n (.fadeTick sc)) s = .next t ∧
    KeepsAllBut s t [.hlc sc] ∧
    (∀ rank, (t.hlc.get sc).rank rank = (s.hlc.get sc).rank rank) ∧ (t.hlc.get sc).presets = (s.hlc.get sc).presets ∧
    (t.hlc.get sc).floor = (s.hlc.get sc).floor ∧
    ∀ ch, let c := (s.hlc.get sc).channel ch
      let d := (t.hlc.get sc).channel ch
      d = { c with fade := { c.fade with fine := d.fade.fine, ticks := c.fade.ticks - n } } ∧
      min c.fade.fine c.fade.target ≤ d.fade.fine ∧ d.fade.fine ≤ max c.fade.fine c.fade.target ∧
      (c.fade.ticks = 0 → d.fade.fine = c.fade.fine) ∧
      (0 < c.fade.ticks → c.fade.ticks ≤ n → d.fade.fine = c.fade.target) ∧
      (n = 1 → 0 < c.fade.ticks →
        (d.fade.fine : Int) = c.fade.fine + ((c.fade.target : Int) - c.fade.fine).tdiv c.fade.ticks)

/-- R131, R145, R148 to R152: the mains phase tracker. An interval joins the run of good intervals, starts a new one
or empties it; the eighth good interval in a row locks, with P the mean of the eight; a locked tracker raises a
half-cycle event at each good interval and is unlocked by a bad one or by a silence. At a half-cycle event every
channel's firing delay is computed from its output level, AISLE's not below the floor, and its timer started; level 0
is not fired and delay 0 is pulsed at once; a firing timer that runs out pulses its channel; and a lock change to
UNLOCKED cancels every running firing timer. (The order of the four auditoria is log entry 33, the times of pulses log
entry 4, the count of pulses given log entry 25.) -/
def Obligations.MainsLockAndDimmers : Prop :=
  (∀ (time : Nat) (s : State),
     let m := s.mpt
     let x := Instr.zeroCrossPulse time
     let locks (b : Bool) : List Instr := [.lockChange .s1 b, .lockChange .s2 b, .lockChange .s3 b, .lockChange .s4 b]
     let halves (k : Nat) : List Instr :=
       [.halfCycleEvent .s1 k, .halfCycleEvent .s2 k, .halfCycleEvent .s3 k, .halfCycleEvent .s4 k]
     (m.previous = none →
       exec x s = .next { s with mpt := { m with previous := some time, silenceTimer := true } }) ∧
     (∀ z, m.previous = some z →
       let q := time - z
       let taken : Mpt := { m with previous := some time, silenceTimer := true, lastInterval := some (min 65535 q) }
       let full (run : List Nat) : List Nat := (if run.length < 8 then run else run.drop 1) ++ [q]
       ∀ (run : List Nat) (good : Bool),
         ((q < 7000 ∨ 11000 < q) ∧ run = [] ∧ good = false) ∨
         (7000 ≤ q ∧ q ≤ 11000 ∧ m.run = [] ∧ run = [q] ∧ good = true) ∨
         (7000 ≤ q ∧ q ≤ 11000 ∧ ∃ l, m.run.getLast? = some l ∧ (q - l) * 100 ≤ 3 * l ∧ (l - q) * 100 ≤ 3 * l ∧
           run = full m.run ∧ good = true) ∨
         (7000 ≤ q ∧ q ≤ 11000 ∧ ∃ l, m.run.getLast? = some l ∧ (3 * l < (q - l) * 100 ∨ 3 * l < (l - q) * 100) ∧
           run = [q] ∧ good = false) →
         (m.locked = false → run.length ≠ 8 → exec x s = .next { s with mpt := { taken with run := run } }) ∧
         (m.locked = false → run.length = 8 → exec x s = .next { s with
           mpt := { taken with run := run, locked := true, halfPeriod := run.sum / 8 }
           events := s.events ++ locks true ++ halves (run.sum / 8)
           cnl := s.cnl.raise ⟨s.bck.time, .mains true .locked (run.sum / 8) q⟩ }) ∧
         (m.locked = true → good = true → exec x s = .next { s with
           mpt := { taken with run := run, halfPeriod := run.sum / 8 }
           events := s.events ++ halves (run.sum / 8) }) ∧
         (m.locked = true → good = false → exec x s = .next { s with
           mpt := { taken with run := run, locked := false }
           events := s.events ++ locks false
           cnl := s.cnl.raise ⟨s.bck.time, .mains false .interval m.halfPeriod (min 65535 q)⟩ })) ∧
     (m.silenceTimer = false → exec .silenceTimerExpiry s = .next s) ∧
     (m.silenceTimer = true →
       let quiet : Mpt := { m with previous := none, run := [], silenceTimer := false, locked := false }
       (m.locked = false → exec .silenceTimerExpiry s = .next { s with mpt := quiet }) ∧
       (m.locked = true → exec .silenceTimerExpiry s = .next { s with
         mpt := quiet
         events := s.events ++ locks false
         cnl := s.cnl.raise ⟨s.bck.time, .mains false .silence m.halfPeriod 0⟩ }))) ∧
  (∀ (sc : Screen) (period : Nat) (ch : Channel) (locked : Bool) (s : State),
     let h := s.hlc.get sc
     let x := Instr.halfCycleEvent sc period
     let level (f : Fade) : Nat := (f.fine + 128) / 256
     let fired (c : ChannelRec) (l : Nat) : ChannelRec :=
       let d := period * (255 - (l * l + 127) / 255) / 256
       if l = 0 then { c with delay := none, timer := false }
       else if d = 0 then { c with delay := some 0, timer := false, pulses := c.pulses + 1 }
       else { c with delay := some d, timer := true }
     exec x s = .next { s with
       events := s.events.erase x
       hlc := s.hlc.set sc { h with
         house := fired h.house (level h.house.fade)
         aisle := fired h.aisle (max (level h.aisle.fade) h.floor)
         stage := fired h.stage (level h.stage.fade) } } ∧
     (∃ t, exec (.firingTimerExpiry sc ch) s = .next t ∧ KeepsAllBut s t [.hlc sc] ∧
       (t.hlc.get sc).channel ch = (if (h.channel ch).timer = true then
         { h.channel ch with timer := false, pulses := (h.channel ch).pulses + 1 } else h.channel ch) ∧
       (∀ other, other ≠ ch → (t.hlc.get sc).channel other = h.channel other) ∧
       (∀ rank, (t.hlc.get sc).rank rank = h.rank rank) ∧ (t.hlc.get sc).presets = h.presets ∧
       (t.hlc.get sc).floor = h.floor) ∧
     (locked = true → exec (.lockChange sc locked) s = .next (s.taken (.lockChange sc locked))) ∧
     (locked = false → exec (.lockChange sc locked) s = .next { s with
       events := s.events.erase (.lockChange sc locked)
       hlc := s.hlc.set sc { h with
         house := { h.house with timer := false }, aisle := { h.aisle with timer := false },
         stage := { h.stage with timer := false } } }))

/-! ## Chapter 8: booth safety -/

/-- R161, R162: a film break or a stall drops its shutter, with a SHUTTER notice when it was up, sets its veto, and hands
a motor stop to the TRM and the event to the SHC; a refused start hands the SHC the event of the latch that holds the
motor. (With neither latched any more, the emergency-stop event is the model's choice, log entry 15.) -/
def Obligations.BreaksCloseTheirProjectorOff : Prop :=
  ∀ (p : Proj) (count : Nat) (kind : BreakKind) (s : State),
    let x := match kind with | .filmBreak => Instr.filmBreak p count | .stall => Instr.stall p count
    let veto : VetoCause := match kind with | .filmBreak => .filmBreak | .stall => .stall
    let y := s.bsu.shutters.get p
    let handed := s.events.erase x ++ [.motorStop p, .breakOrStallEvent p kind count]
    (y.state = .dropped → exec x s = .next { s with
      events := handed, bsu := { s.bsu with vetoes := s.bsu.vetoes.set p (some veto) } }) ∧
    (y.state ≠ .dropped → exec x s = .next { s with
      events := handed
      bsu := { s.bsu with
        shutters := s.bsu.shutters.set p { y with state := .dropped, reason := .break_, raiseTimer := false },
        vetoes := s.bsu.vetoes.set p (some veto) }
      cnl := s.cnl.raise ⟨s.bck.time, .shutter p .dropped y.state (some .break_)⟩ }) ∧
    (s.bsu.fire.isSome = true → exec (.refusedStart p) s =
      .next { s with events := s.events.erase (.refusedStart p) ++ [.fireEvent p.screen] }) ∧
    (s.bsu.fire = none → exec (.refusedStart p) s =
      .next { s with events := s.events.erase (.refusedStart p) ++ [.emergencyStopEvent p.screen] })

/-- R156 to R160: RAISE SHUTTER is refused by its checks in their order or begins the raise; the raise timer makes it
a FAULT drop; DROP SHUTTER puts an open port DROPPED with reason CONSOLE and tells the SHC. An edge of a shutter-up
sensor, by the shutter's state: recorded alone; the raise complete, its veto clear or, under the emergency stop, set
with cause ESTOP; or the unsolicited drop of a parted link, which latches the fire state with reason PORT LINK or adds
it, and tells the SHC last. (The drop-reason byte of a change to RAISING or RAISED is log entry 29's choice, and the
samples behind the edge are log entry 23's; that an edge of an unsettled sensor settles it and has the same effect is log
entry 20's; the order of numbers at the latch is log entry 33's.) -/
def Obligations.ShuttersAreRaisedAndDropped : Prop :=
  (∀ (tag proj : Byte) (s : State),
     let x := Instr.raiseShutter tag proj
     let z := Instr.dropShutter tag proj
     let reply (i : Instr) (kind : Byte) (r : Result) : State :=
       { s with events := s.events.erase i, cnl := s.cnl.fill ⟨kind, tag, r, none, []⟩ }
     (¬(1 ≤ proj.toNat ∧ proj.toNat ≤ 8) →
       exec x s = .next (reply x 0xC8 .noSuch) ∧ exec z s = .next (reply z 0xC9 .noSuch)) ∧
     (∀ p : Proj, proj.toNat = p.num →
       let y := s.bsu.shutters.get p
       let refusal : Option Result :=
         if y.state = .raising ∨ y.state = .raised then some .already
         else if s.bsu.fire.isSome then some .fireLock
         else if (s.trm.get p).loopClosed ≠ some true then some (.notReady .loop)
         else if (s.trm.get p).state ≠ .stopped then some (.notReady .transport)
         else if y.up = some true then some (.notReady .sensor)
         else none
       (∀ r, refusal = some r → exec x s = .next (reply x 0xC8 r)) ∧
       (refusal = none → exec x s = .next { s with
         events := s.events.erase x
         bsu := { s.bsu with shutters := s.bsu.shutters.set p { y with state := .raising, raiseTimer := true } }
         cnl := (s.cnl.raise ⟨s.bck.time, .shutter p .raising .dropped none⟩).fill ⟨0xC8, tag, .accepted, none, []⟩ }) ∧
       (y.state = .dropped → exec z s = .next (reply z 0xC9 .already)) ∧
       (y.state ≠ .dropped → exec z s = .next { s with
         events := s.events.erase z ++ [.shutterDropped p .console]
         bsu := { s.bsu with
           shutters := s.bsu.shutters.set p { y with state := .dropped, reason := .console, raiseTimer := false } }
         cnl := (s.cnl.raise ⟨s.bck.time, .shutter p .dropped y.state (some .console)⟩).fill
           ⟨0xC9, tag, .done, none, []⟩ }) ∧
       (y.raiseTimer = true → y.state = .raising → exec (.raiseTimerExpiry p) s = .next { s with
         events := s.events ++ [.shutterDropped p .fault]
         bsu := { s.bsu with
           shutters := s.bsu.shutters.set p { y with state := .dropped, reason := .fault, raiseTimer := false } }
         cnl := s.cnl.raise ⟨s.bck.time, .shutter p .dropped .raising (some .fault)⟩ }) ∧
       (y.raiseTimer = false → exec (.raiseTimerExpiry p) s = .next s))) ∧
  (∀ (p : Proj) (up : Bool) (s : State),
     let x := Instr.shutterUpSensorEdge p up
     let y := s.bsu.shutters.get p
     let pin : State := { s with pins := s.pins.setLevel up (.shutterUp p) }
     let seen : Shutter := { y with up := some up, upSamples := [!up, up, up] }
     let fallen : State := { pin with
       bsu := { s.bsu with
         shutters := s.bsu.shutters.set p { seen with state := .dropped, reason := .link, raiseTimer := false } }
       cnl := s.cnl.raise ⟨s.bck.time, .shutter p .dropped .raised (some .link)⟩ }
     (y.state = .dropped ∨ (y.state = .raising ∧ up = false) ∨ (y.state = .raised ∧ up = true) →
       exec x s = .next { pin with bsu := { s.bsu with shutters := s.bsu.shutters.set p seen } }) ∧
     (y.state = .raising → up = true → exec x s = .next { pin with
       bsu := { s.bsu with
         shutters := s.bsu.shutters.set p { seen with state := .raised, raiseTimer := false }
         vetoes := s.bsu.vetoes.set p (if s.bsu.estop.isSome then some .estop else none) }
       cnl := s.cnl.raise ⟨s.bck.time, .shutter p .raised .raising none⟩ }) ∧
     (y.state = .raised → up = false →
       (s.bsu.fire = none → ∃ u, FireLatched fallen u .portLink (some p) ∧
         exec x s = .next { u with events := u.events ++ [.shutterDropped p .link] }) ∧
       (∀ r, s.bsu.fire = some r → r.link = true →
         exec x s = .next { fallen with events := s.events ++ [.shutterDropped p .link] }) ∧
       (∀ r, s.bsu.fire = some r → r.link = false → exec x s = .next { fallen with
         events := s.events ++ [.shutterDropped p .link]
         bsu := { fallen.bsu with fire := some { r with link := true } }
         cnl := fallen.cnl.raise ⟨s.bck.time, .safety .fireReasonAdded true r.input true r.alarm (some r.first)
           r.linkProj s.bsu.estop.isSome s.bsu.proven (some .portLink)⟩ })))

/-- R163 to R168: the fire input and RAISE ALARM latch the fire state, or add their reason once to a latched one;
CLEAR FIRE is refused while the input is ASSERTED, and otherwise clears the state and every FIRE rank and changes no
shutter, veto, lamp, transport or screen (that its SAFETY notice stands before the LIGHTS notices of the releases, and
these in the order of the auditoria, is the model's choice, log entry 6). An ASSERTED edge of the emergency-stop input
latches the state while it is clear, sets every veto, hands motor stops and emergency-stop events out and raises the
SAFETY notice; CLEAR ESTOP is refused while the input is ASSERTED, and otherwise clears the state and the vetoes of the
RAISED shutters, changing no screen. (The pin and the samples behind an input edge are log entry 23, an edge of an
unsettled input log entry 20, and the order of numbers in which a latch drops shutters and hands events out log entry
33.) -/
def Obligations.LatchesAreSetJoinedAndCleared : Prop :=
  (∀ (tag : Byte) (s : State),
     let edge := Instr.fireInputEdge true
     let alarm := Instr.raiseAlarm tag
     let clear := Instr.clearFire tag
     let level (b : Bool) : State := { s with
       pins := s.pins.setLevel b .fire
       bsu := { s.bsu with fireInput := some b, fireSamples := [!b, b, b] } }
     let done (u : State) (kind : Byte) (r : Result) : State := { u with cnl := u.cnl.fill ⟨kind, tag, r, none, []⟩ }
     let joined (u : State) (q : FireRecord) (why : FireReason) : State := { u with
       bsu := { u.bsu with fire := some q }
       cnl := u.cnl.raise ⟨s.bck.time, .safety .fireReasonAdded true q.input q.link q.alarm (some q.first) q.linkProj
         s.bsu.estop.isSome s.bsu.proven (some why)⟩ }
     exec (.fireInputEdge false) s = .next (level false) ∧
     (s.bsu.fire = none →
       (∃ u, exec edge s = .next u ∧ FireLatched (level true) u .input none) ∧
       (∃ u, exec alarm s = .next (done u 0xCA .done) ∧ FireLatched (s.taken alarm) u .alarm none) ∧
       exec clear s = .next (done (s.taken clear) 0xCB .already)) ∧
     (∀ r, s.bsu.fire = some r →
       (r.input = true → exec edge s = .next (level true)) ∧
       (r.input = false → exec edge s = .next (joined (level true) { r with input := true } .input)) ∧
       (r.alarm = true → exec alarm s = .next (done (s.taken alarm) 0xCA .already)) ∧
       (r.alarm = false → exec alarm s =
         .next (done (joined (s.taken alarm) { r with alarm := true } .alarm) 0xCA .done)) ∧
       (s.bsu.fireInput = some true → exec clear s =
         .next (done (s.taken clear) 0xCB (.notReady .inputAsserted))) ∧
       (s.bsu.fireInput ≠ some true → ∃ u, exec clear s = .next (done u 0xCB .done) ∧
         KeepsAllBut (s.taken clear) u [.cnl, .bsu, .hlc .s1, .hlc .s2, .hlc .s3, .hlc .s4] ∧
         u.bsu = { s.bsu with fire := none } ∧
         (∀ sc, (u.hlc.get sc).fire = none ∧
           ∀ rank, rank ≠ .fire → (u.hlc.get sc).rank rank = (s.hlc.get sc).rank rank) ∧
         Noted (s.cnl.raise ⟨s.bck.time, .safety .fireCleared false r.input r.link r.alarm none none
           s.bsu.estop.isSome s.bsu.proven none⟩) u.cnl))) ∧
  (∀ (tag : Byte) (s : State),
     let edge := Instr.emergencyStopInputEdge true
     let clear := Instr.clearEstop tag
     let level (b : Bool) : Bsu := { s.bsu with estopInput := some b, estopSamples := [!b, b, b] }
     let pin (b : Bool) : State := { s with pins := s.pins.setLevel b .estop }
     let f := s.bsu.fire
     let safety (event : SafetyEvent) (estop : Bool) : Notice := ⟨s.bck.time, .safety event f.isSome
       (f.elim false (·.input)) (f.elim false (·.link)) (f.elim false (·.alarm)) (f.map (·.first))
       (f.bind (·.linkProj)) estop s.bsu.proven none⟩
     let reply (r : Result) : State :=
       { s with events := s.events.erase clear, cnl := s.cnl.fill ⟨0xCC, tag, r, none, []⟩ }
     exec (.emergencyStopInputEdge false) s = .next { pin false with bsu := level false } ∧
     (s.bsu.estop.isSome = true → exec edge s = .next { pin true with bsu := level true }) ∧
     (s.bsu.estop = none → exec edge s = .next { pin true with
       events := s.events ++ (Proj.all.map .motorStop ++ Screen.all.map .emergencyStopEvent)
       bsu := { level true with estop := some s.bck.time, vetoes := Oct.const (some .estop) }
       cnl := s.cnl.raise (safety .estopLatched true) }) ∧
     (s.bsu.estop = none → exec clear s = .next (reply .already)) ∧
     (s.bsu.estop.isSome = true → s.bsu.estopInput = some true → exec clear s =
       .next (reply (.notReady .inputAsserted))) ∧
     (s.bsu.estop.isSome = true → s.bsu.estopInput ≠ some true → ∃ vetoes, exec clear s = .next { s with
       events := s.events.erase clear
       bsu := { s.bsu with estop := none, vetoes := vetoes }
       cnl := (s.cnl.raise (safety .estopCleared false)).fill ⟨0xCC, tag, .done, none, []⟩ } ∧
       ∀ p, vetoes.get p = if (s.bsu.shutters.get p).state = .raised then none else s.bsu.vetoes.get p))

/-- R75, R76, R154, R169, R170: the exhaust state with its two timers; a loss hands an extinguish to each ALC; a
stopped timer does not run out. An unsettled input settles at the majority of its three samples, which is no edge of
the cue sensor, the loop switch or a shutter-up sensor; the fire and emergency-stop inputs settling at ASSERTED act as
their edges, and the exhaust input settling at PROVEN begins the proving. (A settled input does not settle again: log
entry 20. The pin and the samples behind an edge given as a command: log entry 23. The order of the eight extinguishes:
log entry 33.) -/
def Obligations.ExhaustAndInputs : Prop :=
  (∀ (b : Bool) (s : State),
     let f := s.bsu.fire
     let pin : State := { s with pins := s.pins.setLevel b .exhaust }
     let safety (event : SafetyEvent) (proven : Bool) : Notice := ⟨s.bck.time, .safety event f.isSome
       (f.elim false (·.input)) (f.elim false (·.link)) (f.elim false (·.alarm)) (f.map (·.first))
       (f.bind (·.linkProj)) s.bsu.estop.isSome proven none⟩
     (s.bsu.proven = false →
       exec (.exhaustProvingEdge b) s =
         .next { pin with bsu := { s.bsu with
           exhaustInput := some b, exhaustSamples := [!b, b, b], provingTimer := b } } ∧
       (s.bsu.provingTimer = true → exec .provingTimerExpiry s = .next { s with
         bsu := { s.bsu with proven := true, provingTimer := false }
         cnl := s.cnl.raise (safety .exhaustProven true) })) ∧
     (s.bsu.proven = true →
       exec (.exhaustProvingEdge b) s =
         .next { pin with bsu := { s.bsu with
           exhaustInput := some b, exhaustSamples := [!b, b, b], lossTimer := !b } } ∧
       (s.bsu.lossTimer = true → exec .lossTimerExpiry s = .next { s with
         events := s.events ++ Proj.all.map fun p => .bsuExtinguish p .exhaust
         bsu := { s.bsu with proven := false, lossTimer := false }
         cnl := s.cnl.raise (safety .exhaustLost false) })) ∧
     (s.bsu.provingTimer = false → exec .provingTimerExpiry s = .next s) ∧
     (s.bsu.lossTimer = false → exec .lossTimerExpiry s = .next s)) ∧
  (∀ (p : Proj) (a b c level : Bool) (s : State),
     ((a = b ∧ level = a) ∨ (a ≠ b ∧ level = c)) →
     let settle (i : SwitchInput) := exec (.inputSettling i a b c) s
     let t := s.trm.get p
     let x := s.bsu.shutters.get p
     let pin (i : SwitchInput) : State := { s with pins := s.pins.setLevel c i }
     ((t.cueMark = none → settle (.cueSensor p) = .next { pin (.cueSensor p) with
         trm := s.trm.set p { t with cueMark := some level, cueSamples := [a, b, c] } }) ∧
       (t.loopClosed = none → settle (.loopSwitch p) = .next { pin (.loopSwitch p) with
         trm := s.trm.set p { t with loopClosed := some level, loopSamples := [a, b, c] } }) ∧
       (x.up = none → settle (.shutterUp p) = .next { pin (.shutterUp p) with
         bsu := { s.bsu with
           shutters := s.bsu.shutters.set p { x with up := some level, upSamples := [a, b, c] } } }) ∧
       (s.bsu.fireInput = none → ∃ u, exec (.fireInputEdge level) s = .next u ∧ settle .fire = .next { u with
         pins := (pin .fire).pins, bsu := { u.bsu with fireSamples := [a, b, c] } }) ∧
       (s.bsu.estopInput = none → ∃ u, exec (.emergencyStopInputEdge level) s = .next u ∧
         settle .estop = .next { u with
           pins := (pin .estop).pins, bsu := { u.bsu with estopSamples := [a, b, c] } }) ∧
       (s.bsu.exhaustInput = none → s.bsu.proven = false → settle .exhaust = .next { pin .exhaust with
         bsu := { s.bsu with
           exhaustInput := some level, exhaustSamples := [a, b, c],
           provingTimer := s.bsu.provingTimer || level } })) ∧
     (t.cueMark.isSome = true → settle (.cueSensor p) = .next s) ∧
     (t.loopClosed.isSome = true → settle (.loopSwitch p) = .next s) ∧
     (x.up.isSome = true → settle (.shutterUp p) = .next s) ∧
     (s.bsu.fireInput.isSome = true → settle .fire = .next s) ∧
     (s.bsu.estopInput.isSome = true → settle .estop = .next s) ∧
     (s.bsu.exhaustInput.isSome = true → settle .exhaust = .next s))

/-- R75, R76, R173, R181: the tick of an idle part samples every switch-type input (the tick itself is the model's choice,
log entry 23). Where all inputs but one hold still, the tick does what the sample of that one does. An unsettled input
keeps its first two samples and settles at its third. A settled input keeps its last three; while their majority is the
accepted level, as when one sample differs from those on either side of it, nothing else changes; at the sample that
makes the majority differ, the edge is taken. And one more byte of the frame in transmission is sent, short of its SUM
byte. -/
def Obligations.IdleTickSamplesTheInputs : Prop :=
  (∀ (i : SwitchInput) (s : State),
     s.pending = [] → s.events = [] → s.cnl.tx = none → (∀ j, j ≠ i → s.Steady j) →
     let v := s.pins.level i
     (s.inputLevel i = none →
       (s.samples i = [] → step s = .next (s.keepSamples [v] i)) ∧
       (∀ a, s.samples i = [a] → step s = .next (s.keepSamples [a, v] i)) ∧
       (∀ a b, s.samples i = [a, b] → step s = exec (.inputSettling i a b v) s)) ∧
     (∀ a b c old, s.inputLevel i = some old → s.samples i = [a, b, c] →
       let majority := (b && c) || (b && v) || (c && v)
       (majority = old → step s = .next (s.keepSamples [b, c, v] i)) ∧
       (majority ≠ old → ∃ u, exec (i.edge (!old)) s = .next u ∧
         step s = .next { u.keepSamples [b, c, v] i with pins := s.pins }))) ∧
  (∀ s : State, s.pending = [] → s.events = [] → (∀ i, s.Steady i) →
     (s.cnl.tx = none → step s = .next s) ∧
     (∀ n r rest, s.cnl.tx = some ⟨true, n⟩ → s.cnl.replies = r :: rest → step s =
       .next { s with cnl := { s.cnl with tx := some ⟨true, min (4 + r.body.length) (n + 1)⟩ } }) ∧
     (∀ n x rest, s.cnl.tx = some ⟨false, n⟩ → s.cnl.notices = x :: rest → step s =
       .next { s with cnl := { s.cnl with tx := some ⟨false, min (4 + x.bodyBytes.length) (n + 1)⟩ } }))

/-- R75, R76: an invariant of every step, for every switch-type input: it keeps at most its last three samples, is
unsettled while it has fewer, and with three its accepted level is the one at least two of them hold. -/
def Obligations.InputsFollowTheirSamples : Prop :=
  ∀ (s t : State) (i : SwitchInput), s.InputKept i → step s = .next t → t.InputKept i

/-- R72, R155, R160, R164, R167, R169: a douser output is open exactly when its six terms hold. Booth safety: under
the fire state every shutter stays DROPPED and under either latch every veto stays set, so that no douser output is
open; the raise and exhaust timers run on their own side. -/
def Obligations.BoothSafetyHoldsAtEveryStep : Prop :=
  (∀ (p : Proj) (s : State), s.douserOpen p = true ↔
     (s.shc.get p.screen).douser p.side = true ∧ s.bsu.vetoes.get p = none ∧ (s.alc.get p).state = .stable ∧
     (s.trm.get p).state = .atSpeed ∧ (s.bsu.shutters.get p).state = .raised ∧ s.bsu.fire = none) ∧
  (∀ s t : State, s.bsu.Safe → step s = .next t → t.bsu.Safe ∧
     ∀ p, t.douserOpen p = true → t.bsu.fire = none ∧ t.bsu.estop = none)

/-! ## The screens and the reset -/

/-- R43, R1: every step keeps the halt record present exactly in HALTED and both banks at 24 entries. -/
def Obligations.HaltRecordIsPresentExactlyInHalted : Prop :=
  ∀ (s t : State) (sc : Screen), (s.shc.get sc).HaltKept → (s.shc.get sc).FullBanks → step s = .next t →
    (t.shc.get sc).HaltKept ∧ (t.shc.get sc).FullBanks

/-- R1, R43, R76, R77, R95, R155, R173, R187: the state after power-on meets every invariant above, and powering it on again
leaves it as it is. (That both straps are open, the line is at mark and every input is at rest is the model's choice, log
entry 3.) -/
def Obligations.ResetStateIsSafe : Prop :=
  State.reset.Safe ∧ exec (.powerOn ⟨false, false⟩) State.reset = .next State.reset
end

