-- ==== Sys2Proof/Laws/State.lean ====
section
/-!
SUPPORT. The small lemmas of the state: tables by screen and projector, one lemma per field for each update of
a block's record, for raising and taking events, for notices and for replies.
-/

namespace Sys2Proof.Machine

/-! ## Tables -/

@[simp] theorem Quad.get_set_self {α : Type} (q : Quad α) (i : Screen) (x : α) : (q.set i x).get i = x := by
  cases i <;> rfl

@[simp] theorem Quad.get_set_ne {α : Type} (q : Quad α) {i j : Screen} (x : α) (h : j ≠ i) :
    (q.set i x).get j = q.get j := by
  cases i <;> cases j <;> first | rfl | exact absurd rfl h

theorem Quad.get_set {α : Type} (q : Quad α) (i j : Screen) (x : α) :
    (q.set i x).get j = if j = i then x else q.get j := by
  split
  · subst_vars; simp
  · simp [*]

@[simp] theorem Quad.set_set {α : Type} (q : Quad α) (i : Screen) (x y : α) : (q.set i x).set i y = q.set i y := by
  cases i <;> rfl

@[simp] theorem Quad.set_get {α : Type} (q : Quad α) (i : Screen) : q.set i (q.get i) = q := by cases i <;> rfl

@[simp] theorem Quad.get_const {α : Type} (x : α) (i : Screen) : (Quad.const x).get i = x := by cases i <;> rfl

@[simp] theorem Oct.get_set_self {α : Type} (o : Oct α) (i : Proj) (x : α) : (o.set i x).get i = x := by
  cases i <;> rfl

@[simp] theorem Oct.get_set_ne {α : Type} (o : Oct α) {i j : Proj} (x : α) (h : j ≠ i) :
    (o.set i x).get j = o.get j := by
  cases i <;> cases j <;> first | rfl | exact absurd rfl h

theorem Oct.get_set {α : Type} (o : Oct α) (i j : Proj) (x : α) :
    (o.set i x).get j = if j = i then x else o.get j := by
  split
  · subst_vars; simp
  · simp [*]

@[simp] theorem Oct.set_set {α : Type} (o : Oct α) (i : Proj) (x y : α) : (o.set i x).set i y = o.set i y := by
  cases i <;> rfl

@[simp] theorem Oct.set_get {α : Type} (o : Oct α) (i : Proj) : o.set i (o.get i) = o := by cases i <;> rfl

@[simp] theorem Oct.get_const {α : Type} (x : α) (i : Proj) : (Oct.const x).get i = x := by cases i <;> rfl

@[simp] theorem proj_screen (sc : Screen) (side : Side) : (sc.proj side).screen = sc := by
  cases sc <;> cases side <;> rfl

@[simp] theorem proj_side (sc : Screen) (side : Side) : (sc.proj side).side = side := by
  cases sc <;> cases side <;> rfl

@[simp] theorem screen_proj (p : Proj) : p.screen.proj p.side = p := by cases p <;> rfl

theorem proj_mem_sides (sc : Screen) (side : Side) : sc.proj side = sc.proj .a ∨ sc.proj side = sc.proj .b := by
  cases side <;> simp

/-! ## Updates of one record -/

/-! ### modPins -/

@[simp] theorem State.modPins_pending (s : State) (f : Pins → Pins) : (s.modPins f).pending = s.pending := rfl
@[simp] theorem State.modPins_events (s : State) (f : Pins → Pins) : (s.modPins f).events = s.events := rfl
@[simp] theorem State.modPins_pins (s : State) (f : Pins → Pins) : (s.modPins f).pins = f s.pins := rfl
@[simp] theorem State.modPins_cnl (s : State) (f : Pins → Pins) : (s.modPins f).cnl = s.cnl := rfl
@[simp] theorem State.modPins_bck (s : State) (f : Pins → Pins) : (s.modPins f).bck = s.bck := rfl
@[simp] theorem State.modPins_shc (s : State) (f : Pins → Pins) : (s.modPins f).shc = s.shc := rfl
@[simp] theorem State.modPins_trm (s : State) (f : Pins → Pins) : (s.modPins f).trm = s.trm := rfl
@[simp] theorem State.modPins_alc (s : State) (f : Pins → Pins) : (s.modPins f).alc = s.alc := rfl
@[simp] theorem State.modPins_hlc (s : State) (f : Pins → Pins) : (s.modPins f).hlc = s.hlc := rfl
@[simp] theorem State.modPins_mpt (s : State) (f : Pins → Pins) : (s.modPins f).mpt = s.mpt := rfl
@[simp] theorem State.modPins_bsu (s : State) (f : Pins → Pins) : (s.modPins f).bsu = s.bsu := rfl

/-! ### modCnl -/

@[simp] theorem State.modCnl_pending (s : State) (f : Cnl → Cnl) : (s.modCnl f).pending = s.pending := rfl
@[simp] theorem State.modCnl_events (s : State) (f : Cnl → Cnl) : (s.modCnl f).events = s.events := rfl
@[simp] theorem State.modCnl_pins (s : State) (f : Cnl → Cnl) : (s.modCnl f).pins = s.pins := rfl
@[simp] theorem State.modCnl_cnl (s : State) (f : Cnl → Cnl) : (s.modCnl f).cnl = f s.cnl := rfl
@[simp] theorem State.modCnl_bck (s : State) (f : Cnl → Cnl) : (s.modCnl f).bck = s.bck := rfl
@[simp] theorem State.modCnl_shc (s : State) (f : Cnl → Cnl) : (s.modCnl f).shc = s.shc := rfl
@[simp] theorem State.modCnl_trm (s : State) (f : Cnl → Cnl) : (s.modCnl f).trm = s.trm := rfl
@[simp] theorem State.modCnl_alc (s : State) (f : Cnl → Cnl) : (s.modCnl f).alc = s.alc := rfl
@[simp] theorem State.modCnl_hlc (s : State) (f : Cnl → Cnl) : (s.modCnl f).hlc = s.hlc := rfl
@[simp] theorem State.modCnl_mpt (s : State) (f : Cnl → Cnl) : (s.modCnl f).mpt = s.mpt := rfl
@[simp] theorem State.modCnl_bsu (s : State) (f : Cnl → Cnl) : (s.modCnl f).bsu = s.bsu := rfl

/-! ### modBck -/

@[simp] theorem State.modBck_pending (s : State) (f : Bck → Bck) : (s.modBck f).pending = s.pending := rfl
@[simp] theorem State.modBck_events (s : State) (f : Bck → Bck) : (s.modBck f).events = s.events := rfl
@[simp] theorem State.modBck_pins (s : State) (f : Bck → Bck) : (s.modBck f).pins = s.pins := rfl
@[simp] theorem State.modBck_cnl (s : State) (f : Bck → Bck) : (s.modBck f).cnl = s.cnl := rfl
@[simp] theorem State.modBck_bck (s : State) (f : Bck → Bck) : (s.modBck f).bck = f s.bck := rfl
@[simp] theorem State.modBck_shc (s : State) (f : Bck → Bck) : (s.modBck f).shc = s.shc := rfl
@[simp] theorem State.modBck_trm (s : State) (f : Bck → Bck) : (s.modBck f).trm = s.trm := rfl
@[simp] theorem State.modBck_alc (s : State) (f : Bck → Bck) : (s.modBck f).alc = s.alc := rfl
@[simp] theorem State.modBck_hlc (s : State) (f : Bck → Bck) : (s.modBck f).hlc = s.hlc := rfl
@[simp] theorem State.modBck_mpt (s : State) (f : Bck → Bck) : (s.modBck f).mpt = s.mpt := rfl
@[simp] theorem State.modBck_bsu (s : State) (f : Bck → Bck) : (s.modBck f).bsu = s.bsu := rfl

/-! ### modMpt -/

@[simp] theorem State.modMpt_pending (s : State) (f : Mpt → Mpt) : (s.modMpt f).pending = s.pending := rfl
@[simp] theorem State.modMpt_events (s : State) (f : Mpt → Mpt) : (s.modMpt f).events = s.events := rfl
@[simp] theorem State.modMpt_pins (s : State) (f : Mpt → Mpt) : (s.modMpt f).pins = s.pins := rfl
@[simp] theorem State.modMpt_cnl (s : State) (f : Mpt → Mpt) : (s.modMpt f).cnl = s.cnl := rfl
@[simp] theorem State.modMpt_bck (s : State) (f : Mpt → Mpt) : (s.modMpt f).bck = s.bck := rfl
@[simp] theorem State.modMpt_shc (s : State) (f : Mpt → Mpt) : (s.modMpt f).shc = s.shc := rfl
@[simp] theorem State.modMpt_trm (s : State) (f : Mpt → Mpt) : (s.modMpt f).trm = s.trm := rfl
@[simp] theorem State.modMpt_alc (s : State) (f : Mpt → Mpt) : (s.modMpt f).alc = s.alc := rfl
@[simp] theorem State.modMpt_hlc (s : State) (f : Mpt → Mpt) : (s.modMpt f).hlc = s.hlc := rfl
@[simp] theorem State.modMpt_mpt (s : State) (f : Mpt → Mpt) : (s.modMpt f).mpt = f s.mpt := rfl
@[simp] theorem State.modMpt_bsu (s : State) (f : Mpt → Mpt) : (s.modMpt f).bsu = s.bsu := rfl

/-! ### modBsu -/

@[simp] theorem State.modBsu_pending (s : State) (f : Bsu → Bsu) : (s.modBsu f).pending = s.pending := rfl
@[simp] theorem State.modBsu_events (s : State) (f : Bsu → Bsu) : (s.modBsu f).events = s.events := rfl
@[simp] theorem State.modBsu_pins (s : State) (f : Bsu → Bsu) : (s.modBsu f).pins = s.pins := rfl
@[simp] theorem State.modBsu_cnl (s : State) (f : Bsu → Bsu) : (s.modBsu f).cnl = s.cnl := rfl
@[simp] theorem State.modBsu_bck (s : State) (f : Bsu → Bsu) : (s.modBsu f).bck = s.bck := rfl
@[simp] theorem State.modBsu_shc (s : State) (f : Bsu → Bsu) : (s.modBsu f).shc = s.shc := rfl
@[simp] theorem State.modBsu_trm (s : State) (f : Bsu → Bsu) : (s.modBsu f).trm = s.trm := rfl
@[simp] theorem State.modBsu_alc (s : State) (f : Bsu → Bsu) : (s.modBsu f).alc = s.alc := rfl
@[simp] theorem State.modBsu_hlc (s : State) (f : Bsu → Bsu) : (s.modBsu f).hlc = s.hlc := rfl
@[simp] theorem State.modBsu_mpt (s : State) (f : Bsu → Bsu) : (s.modBsu f).mpt = s.mpt := rfl
@[simp] theorem State.modBsu_bsu (s : State) (f : Bsu → Bsu) : (s.modBsu f).bsu = f s.bsu := rfl

/-! ### modShc -/

@[simp] theorem State.modShc_pending (s : State) (sc : Screen) (f : Shc → Shc) : (s.modShc sc f).pending = s.pending := rfl
@[simp] theorem State.modShc_events (s : State) (sc : Screen) (f : Shc → Shc) : (s.modShc sc f).events = s.events := rfl
@[simp] theorem State.modShc_pins (s : State) (sc : Screen) (f : Shc → Shc) : (s.modShc sc f).pins = s.pins := rfl
@[simp] theorem State.modShc_cnl (s : State) (sc : Screen) (f : Shc → Shc) : (s.modShc sc f).cnl = s.cnl := rfl
@[simp] theorem State.modShc_bck (s : State) (sc : Screen) (f : Shc → Shc) : (s.modShc sc f).bck = s.bck := rfl
@[simp] theorem State.modShc_shc (s : State) (sc : Screen) (f : Shc → Shc) : (s.modShc sc f).shc = s.shc.set sc (f (s.shc.get sc)) := rfl
@[simp] theorem State.modShc_trm (s : State) (sc : Screen) (f : Shc → Shc) : (s.modShc sc f).trm = s.trm := rfl
@[simp] theorem State.modShc_alc (s : State) (sc : Screen) (f : Shc → Shc) : (s.modShc sc f).alc = s.alc := rfl
@[simp] theorem State.modShc_hlc (s : State) (sc : Screen) (f : Shc → Shc) : (s.modShc sc f).hlc = s.hlc := rfl
@[simp] theorem State.modShc_mpt (s : State) (sc : Screen) (f : Shc → Shc) : (s.modShc sc f).mpt = s.mpt := rfl
@[simp] theorem State.modShc_bsu (s : State) (sc : Screen) (f : Shc → Shc) : (s.modShc sc f).bsu = s.bsu := rfl

/-! ### modHlc -/

@[simp] theorem State.modHlc_pending (s : State) (sc : Screen) (f : Hlc → Hlc) : (s.modHlc sc f).pending = s.pending := rfl
@[simp] theorem State.modHlc_events (s : State) (sc : Screen) (f : Hlc → Hlc) : (s.modHlc sc f).events = s.events := rfl
@[simp] theorem State.modHlc_pins (s : State) (sc : Screen) (f : Hlc → Hlc) : (s.modHlc sc f).pins = s.pins := rfl
@[simp] theorem State.modHlc_cnl (s : State) (sc : Screen) (f : Hlc → Hlc) : (s.modHlc sc f).cnl = s.cnl := rfl
@[simp] theorem State.modHlc_bck (s : State) (sc : Screen) (f : Hlc → Hlc) : (s.modHlc sc f).bck = s.bck := rfl
@[simp] theorem State.modHlc_shc (s : State) (sc : Screen) (f : Hlc → Hlc) : (s.modHlc sc f).shc = s.shc := rfl
@[simp] theorem State.modHlc_trm (s : State) (sc : Screen) (f : Hlc → Hlc) : (s.modHlc sc f).trm = s.trm := rfl
@[simp] theorem State.modHlc_alc (s : State) (sc : Screen) (f : Hlc → Hlc) : (s.modHlc sc f).alc = s.alc := rfl
@[simp] theorem State.modHlc_hlc (s : State) (sc : Screen) (f : Hlc → Hlc) : (s.modHlc sc f).hlc = s.hlc.set sc (f (s.hlc.get sc)) := rfl
@[simp] theorem State.modHlc_mpt (s : State) (sc : Screen) (f : Hlc → Hlc) : (s.modHlc sc f).mpt = s.mpt := rfl
@[simp] theorem State.modHlc_bsu (s : State) (sc : Screen) (f : Hlc → Hlc) : (s.modHlc sc f).bsu = s.bsu := rfl

/-! ### modTrm -/

@[simp] theorem State.modTrm_pending (s : State) (p : Proj) (f : Trm → Trm) : (s.modTrm p f).pending = s.pending := rfl
@[simp] theorem State.modTrm_events (s : State) (p : Proj) (f : Trm → Trm) : (s.modTrm p f).events = s.events := rfl
@[simp] theorem State.modTrm_pins (s : State) (p : Proj) (f : Trm → Trm) : (s.modTrm p f).pins = s.pins := rfl
@[simp] theorem State.modTrm_cnl (s : State) (p : Proj) (f : Trm → Trm) : (s.modTrm p f).cnl = s.cnl := rfl
@[simp] theorem State.modTrm_bck (s : State) (p : Proj) (f : Trm → Trm) : (s.modTrm p f).bck = s.bck := rfl
@[simp] theorem State.modTrm_shc (s : State) (p : Proj) (f : Trm → Trm) : (s.modTrm p f).shc = s.shc := rfl
@[simp] theorem State.modTrm_trm (s : State) (p : Proj) (f : Trm → Trm) : (s.modTrm p f).trm = s.trm.set p (f (s.trm.get p)) := rfl
@[simp] theorem State.modTrm_alc (s : State) (p : Proj) (f : Trm → Trm) : (s.modTrm p f).alc = s.alc := rfl
@[simp] theorem State.modTrm_hlc (s : State) (p : Proj) (f : Trm → Trm) : (s.modTrm p f).hlc = s.hlc := rfl
@[simp] theorem State.modTrm_mpt (s : State) (p : Proj) (f : Trm → Trm) : (s.modTrm p f).mpt = s.mpt := rfl
@[simp] theorem State.modTrm_bsu (s : State) (p : Proj) (f : Trm → Trm) : (s.modTrm p f).bsu = s.bsu := rfl

/-! ### modAlc -/

@[simp] theorem State.modAlc_pending (s : State) (p : Proj) (f : Alc → Alc) : (s.modAlc p f).pending = s.pending := rfl
@[simp] theorem State.modAlc_events (s : State) (p : Proj) (f : Alc → Alc) : (s.modAlc p f).events = s.events := rfl
@[simp] theorem State.modAlc_pins (s : State) (p : Proj) (f : Alc → Alc) : (s.modAlc p f).pins = s.pins := rfl
@[simp] theorem State.modAlc_cnl (s : State) (p : Proj) (f : Alc → Alc) : (s.modAlc p f).cnl = s.cnl := rfl
@[simp] theorem State.modAlc_bck (s : State) (p : Proj) (f : Alc → Alc) : (s.modAlc p f).bck = s.bck := rfl
@[simp] theorem State.modAlc_shc (s : State) (p : Proj) (f : Alc → Alc) : (s.modAlc p f).shc = s.shc := rfl
@[simp] theorem State.modAlc_trm (s : State) (p : Proj) (f : Alc → Alc) : (s.modAlc p f).trm = s.trm := rfl
@[simp] theorem State.modAlc_alc (s : State) (p : Proj) (f : Alc → Alc) : (s.modAlc p f).alc = s.alc.set p (f (s.alc.get p)) := rfl
@[simp] theorem State.modAlc_hlc (s : State) (p : Proj) (f : Alc → Alc) : (s.modAlc p f).hlc = s.hlc := rfl
@[simp] theorem State.modAlc_mpt (s : State) (p : Proj) (f : Alc → Alc) : (s.modAlc p f).mpt = s.mpt := rfl
@[simp] theorem State.modAlc_bsu (s : State) (p : Proj) (f : Alc → Alc) : (s.modAlc p f).bsu = s.bsu := rfl

/-! ### emit -/

@[simp] theorem State.emit_pending (s : State) (e : Instr) : (s.emit e).pending = s.pending := rfl
@[simp] theorem State.emit_events (s : State) (e : Instr) : (s.emit e).events = s.events ++ [e] := rfl
@[simp] theorem State.emit_pins (s : State) (e : Instr) : (s.emit e).pins = s.pins := rfl
@[simp] theorem State.emit_cnl (s : State) (e : Instr) : (s.emit e).cnl = s.cnl := rfl
@[simp] theorem State.emit_bck (s : State) (e : Instr) : (s.emit e).bck = s.bck := rfl
@[simp] theorem State.emit_shc (s : State) (e : Instr) : (s.emit e).shc = s.shc := rfl
@[simp] theorem State.emit_trm (s : State) (e : Instr) : (s.emit e).trm = s.trm := rfl
@[simp] theorem State.emit_alc (s : State) (e : Instr) : (s.emit e).alc = s.alc := rfl
@[simp] theorem State.emit_hlc (s : State) (e : Instr) : (s.emit e).hlc = s.hlc := rfl
@[simp] theorem State.emit_mpt (s : State) (e : Instr) : (s.emit e).mpt = s.mpt := rfl
@[simp] theorem State.emit_bsu (s : State) (e : Instr) : (s.emit e).bsu = s.bsu := rfl

/-! ### emitAll -/

@[simp] theorem State.emitAll_pending (s : State) (es : List Instr) : (s.emitAll es).pending = s.pending := rfl
@[simp] theorem State.emitAll_events (s : State) (es : List Instr) : (s.emitAll es).events = s.events ++ es := rfl
@[simp] theorem State.emitAll_pins (s : State) (es : List Instr) : (s.emitAll es).pins = s.pins := rfl
@[simp] theorem State.emitAll_cnl (s : State) (es : List Instr) : (s.emitAll es).cnl = s.cnl := rfl
@[simp] theorem State.emitAll_bck (s : State) (es : List Instr) : (s.emitAll es).bck = s.bck := rfl
@[simp] theorem State.emitAll_shc (s : State) (es : List Instr) : (s.emitAll es).shc = s.shc := rfl
@[simp] theorem State.emitAll_trm (s : State) (es : List Instr) : (s.emitAll es).trm = s.trm := rfl
@[simp] theorem State.emitAll_alc (s : State) (es : List Instr) : (s.emitAll es).alc = s.alc := rfl
@[simp] theorem State.emitAll_hlc (s : State) (es : List Instr) : (s.emitAll es).hlc = s.hlc := rfl
@[simp] theorem State.emitAll_mpt (s : State) (es : List Instr) : (s.emitAll es).mpt = s.mpt := rfl
@[simp] theorem State.emitAll_bsu (s : State) (es : List Instr) : (s.emitAll es).bsu = s.bsu := rfl

/-! ### taken -/

@[simp] theorem State.taken_pending (s : State) (e : Instr) : (s.taken e).pending = s.pending := rfl
@[simp] theorem State.taken_events (s : State) (e : Instr) : (s.taken e).events = s.events.erase e := rfl
@[simp] theorem State.taken_pins (s : State) (e : Instr) : (s.taken e).pins = s.pins := rfl
@[simp] theorem State.taken_cnl (s : State) (e : Instr) : (s.taken e).cnl = s.cnl := rfl
@[simp] theorem State.taken_bck (s : State) (e : Instr) : (s.taken e).bck = s.bck := rfl
@[simp] theorem State.taken_shc (s : State) (e : Instr) : (s.taken e).shc = s.shc := rfl
@[simp] theorem State.taken_trm (s : State) (e : Instr) : (s.taken e).trm = s.trm := rfl
@[simp] theorem State.taken_alc (s : State) (e : Instr) : (s.taken e).alc = s.alc := rfl
@[simp] theorem State.taken_hlc (s : State) (e : Instr) : (s.taken e).hlc = s.hlc := rfl
@[simp] theorem State.taken_mpt (s : State) (e : Instr) : (s.taken e).mpt = s.mpt := rfl
@[simp] theorem State.taken_bsu (s : State) (e : Instr) : (s.taken e).bsu = s.bsu := rfl

/-! ### note -/

@[simp] theorem State.note_pending (s : State) (b : NoticeBody) : (s.note b).pending = s.pending := rfl
@[simp] theorem State.note_events (s : State) (b : NoticeBody) : (s.note b).events = s.events := rfl
@[simp] theorem State.note_pins (s : State) (b : NoticeBody) : (s.note b).pins = s.pins := rfl
@[simp] theorem State.note_cnl (s : State) (b : NoticeBody) : (s.note b).cnl = s.cnl.raise ⟨s.bck.time, b⟩ := rfl
@[simp] theorem State.note_bck (s : State) (b : NoticeBody) : (s.note b).bck = s.bck := rfl
@[simp] theorem State.note_shc (s : State) (b : NoticeBody) : (s.note b).shc = s.shc := rfl
@[simp] theorem State.note_trm (s : State) (b : NoticeBody) : (s.note b).trm = s.trm := rfl
@[simp] theorem State.note_alc (s : State) (b : NoticeBody) : (s.note b).alc = s.alc := rfl
@[simp] theorem State.note_hlc (s : State) (b : NoticeBody) : (s.note b).hlc = s.hlc := rfl
@[simp] theorem State.note_mpt (s : State) (b : NoticeBody) : (s.note b).mpt = s.mpt := rfl
@[simp] theorem State.note_bsu (s : State) (b : NoticeBody) : (s.note b).bsu = s.bsu := rfl

/-! ### reply -/

@[simp] theorem State.reply_pending (s : State) (kind tag : Byte) (r : Result) (adj : Option Bool) (d : List Byte) : (s.reply kind tag r adj d).pending = s.pending := rfl
@[simp] theorem State.reply_events (s : State) (kind tag : Byte) (r : Result) (adj : Option Bool) (d : List Byte) : (s.reply kind tag r adj d).events = s.events := rfl
@[simp] theorem State.reply_pins (s : State) (kind tag : Byte) (r : Result) (adj : Option Bool) (d : List Byte) : (s.reply kind tag r adj d).pins = s.pins := rfl
@[simp] theorem State.reply_cnl (s : State) (kind tag : Byte) (r : Result) (adj : Option Bool) (d : List Byte) : (s.reply kind tag r adj d).cnl = s.cnl.fill ⟨kind + 0x80, tag, r, adj, d⟩ := rfl
@[simp] theorem State.reply_bck (s : State) (kind tag : Byte) (r : Result) (adj : Option Bool) (d : List Byte) : (s.reply kind tag r adj d).bck = s.bck := rfl
@[simp] theorem State.reply_shc (s : State) (kind tag : Byte) (r : Result) (adj : Option Bool) (d : List Byte) : (s.reply kind tag r adj d).shc = s.shc := rfl
@[simp] theorem State.reply_trm (s : State) (kind tag : Byte) (r : Result) (adj : Option Bool) (d : List Byte) : (s.reply kind tag r adj d).trm = s.trm := rfl
@[simp] theorem State.reply_alc (s : State) (kind tag : Byte) (r : Result) (adj : Option Bool) (d : List Byte) : (s.reply kind tag r adj d).alc = s.alc := rfl
@[simp] theorem State.reply_hlc (s : State) (kind tag : Byte) (r : Result) (adj : Option Bool) (d : List Byte) : (s.reply kind tag r adj d).hlc = s.hlc := rfl
@[simp] theorem State.reply_mpt (s : State) (kind tag : Byte) (r : Result) (adj : Option Bool) (d : List Byte) : (s.reply kind tag r adj d).mpt = s.mpt := rfl
@[simp] theorem State.reply_bsu (s : State) (kind tag : Byte) (r : Result) (adj : Option Bool) (d : List Byte) : (s.reply kind tag r adj d).bsu = s.bsu := rfl

/-! ### answer -/

@[simp] theorem State.answer_pending (s : State) (kind tag : Byte) (r : Result) : (s.answer kind tag r).pending = s.pending := rfl
@[simp] theorem State.answer_events (s : State) (kind tag : Byte) (r : Result) : (s.answer kind tag r).events = s.events := rfl
@[simp] theorem State.answer_pins (s : State) (kind tag : Byte) (r : Result) : (s.answer kind tag r).pins = s.pins := rfl
@[simp] theorem State.answer_cnl (s : State) (kind tag : Byte) (r : Result) : (s.answer kind tag r).cnl = s.cnl.fill ⟨kind + 0x80, tag, r, none, []⟩ := rfl
@[simp] theorem State.answer_bck (s : State) (kind tag : Byte) (r : Result) : (s.answer kind tag r).bck = s.bck := rfl
@[simp] theorem State.answer_shc (s : State) (kind tag : Byte) (r : Result) : (s.answer kind tag r).shc = s.shc := rfl
@[simp] theorem State.answer_trm (s : State) (kind tag : Byte) (r : Result) : (s.answer kind tag r).trm = s.trm := rfl
@[simp] theorem State.answer_alc (s : State) (kind tag : Byte) (r : Result) : (s.answer kind tag r).alc = s.alc := rfl
@[simp] theorem State.answer_hlc (s : State) (kind tag : Byte) (r : Result) : (s.answer kind tag r).hlc = s.hlc := rfl
@[simp] theorem State.answer_mpt (s : State) (kind tag : Byte) (r : Result) : (s.answer kind tag r).mpt = s.mpt := rfl
@[simp] theorem State.answer_bsu (s : State) (kind tag : Byte) (r : Result) : (s.answer kind tag r).bsu = s.bsu := rfl

/-! ### answerSet -/

@[simp] theorem State.answerSet_pending (s : State) (kind tag : Byte) (r : Result) (adj : Bool) : (s.answerSet kind tag r adj).pending = s.pending := rfl
@[simp] theorem State.answerSet_events (s : State) (kind tag : Byte) (r : Result) (adj : Bool) : (s.answerSet kind tag r adj).events = s.events := rfl
@[simp] theorem State.answerSet_pins (s : State) (kind tag : Byte) (r : Result) (adj : Bool) : (s.answerSet kind tag r adj).pins = s.pins := rfl
@[simp] theorem State.answerSet_cnl (s : State) (kind tag : Byte) (r : Result) (adj : Bool) : (s.answerSet kind tag r adj).cnl = s.cnl.fill ⟨kind + 0x80, tag, r, some adj, []⟩ := rfl
@[simp] theorem State.answerSet_bck (s : State) (kind tag : Byte) (r : Result) (adj : Bool) : (s.answerSet kind tag r adj).bck = s.bck := rfl
@[simp] theorem State.answerSet_shc (s : State) (kind tag : Byte) (r : Result) (adj : Bool) : (s.answerSet kind tag r adj).shc = s.shc := rfl
@[simp] theorem State.answerSet_trm (s : State) (kind tag : Byte) (r : Result) (adj : Bool) : (s.answerSet kind tag r adj).trm = s.trm := rfl
@[simp] theorem State.answerSet_alc (s : State) (kind tag : Byte) (r : Result) (adj : Bool) : (s.answerSet kind tag r adj).alc = s.alc := rfl
@[simp] theorem State.answerSet_hlc (s : State) (kind tag : Byte) (r : Result) (adj : Bool) : (s.answerSet kind tag r adj).hlc = s.hlc := rfl
@[simp] theorem State.answerSet_mpt (s : State) (kind tag : Byte) (r : Result) (adj : Bool) : (s.answerSet kind tag r adj).mpt = s.mpt := rfl
@[simp] theorem State.answerSet_bsu (s : State) (kind tag : Byte) (r : Result) (adj : Bool) : (s.answerSet kind tag r adj).bsu = s.bsu := rfl

/-! ## Operations made of these -/

theorem State.noteEntry_eq (s : State) (sc : Screen) (b : BankId) (i : Nat) (r : Reel) (reason : EntryReason)
    (short : Bool) (x : Option NotReady) :
    s.noteEntry sc b i r reason short x = s.note (.entry sc b i (sc.proj r.side) r.title reason short
      (s.trm.get (sc.proj r.side)).count x) := rfl

end Sys2Proof.Machine
end

