-- ==== Sys2Proof/Laws/Ops.lean ====
section
/-!
SUPPORT. Frames and the shared operations: how frames compose, what a notice, a reply, a change of lamp state, a
strike, a change of a lighting rank and a change of a shutter do, each said once.
-/

namespace Sys2Proof.Machine

/-! ## Frames -/

theorem KeepsAllBut.refl (s : State) (l : List Part) : KeepsAllBut s s l := by
  intro x _
  cases x <;> rfl

theorem KeepsAllBut.mono {s t : State} {l m : List Part} (h : KeepsAllBut s t l) (hm : ∀ x ∈ l, x ∈ m) :
    KeepsAllBut s t m := fun x hx => h x fun hl => hx (hm x hl)

theorem Same.trans {s t u : State} {x : Part} (h : Same s t x) (k : Same t u x) : Same s u x := by
  cases x <;> exact Eq.trans k h

theorem KeepsAllBut.trans {s t u : State} {l : List Part} (h : KeepsAllBut s t l) (k : KeepsAllBut t u l) :
    KeepsAllBut s u l := fun x hx => (h x hx).trans (k x hx)

/-- Changes of one record keep every other. -/
theorem keeps_modCnl (s : State) (f : Cnl → Cnl) : KeepsAllBut s (s.modCnl f) [.cnl] := by
  intro x hx; cases x <;> first | rfl | simp at hx
theorem keeps_modBck (s : State) (f : Bck → Bck) : KeepsAllBut s (s.modBck f) [.bck] := by
  intro x hx; cases x <;> first | rfl | simp at hx
theorem keeps_modMpt (s : State) (f : Mpt → Mpt) : KeepsAllBut s (s.modMpt f) [.mpt] := by
  intro x hx; cases x <;> first | rfl | simp at hx
theorem keeps_modBsu (s : State) (f : Bsu → Bsu) : KeepsAllBut s (s.modBsu f) [.bsu] := by
  intro x hx; cases x <;> first | rfl | simp at hx
theorem keeps_modShc (s : State) (sc : Screen) (f : Shc → Shc) : KeepsAllBut s (s.modShc sc f) [.shc sc] := by
  intro x hx; cases x <;> first | rfl | (simp at hx; simp [Same, hx])
theorem keeps_modHlc (s : State) (sc : Screen) (f : Hlc → Hlc) : KeepsAllBut s (s.modHlc sc f) [.hlc sc] := by
  intro x hx; cases x <;> first | rfl | (simp at hx; simp [Same, hx])
theorem keeps_modTrm (s : State) (p : Proj) (f : Trm → Trm) : KeepsAllBut s (s.modTrm p f) [.trm p] := by
  intro x hx; cases x <;> first | rfl | (simp at hx; simp [Same, hx])
theorem keeps_modAlc (s : State) (p : Proj) (f : Alc → Alc) : KeepsAllBut s (s.modAlc p f) [.alc p] := by
  intro x hx; cases x <;> first | rfl | (simp at hx; simp [Same, hx])
theorem keeps_emit (s : State) (e : Instr) : KeepsAllBut s (s.emit e) [.events] := by
  intro x hx; cases x <;> first | rfl | simp at hx
theorem keeps_emitAll (s : State) (es : List Instr) : KeepsAllBut s (s.emitAll es) [.events] := by
  intro x hx; cases x <;> first | rfl | simp at hx
theorem keeps_taken (s : State) (e : Instr) : KeepsAllBut s (s.taken e) [.events] := by
  intro x hx; cases x <;> first | rfl | simp at hx
theorem keeps_note (s : State) (b : NoticeBody) : KeepsAllBut s (s.note b) [.cnl] := keeps_modCnl _ _
theorem keeps_reply (s : State) (kind tag : Byte) (r : Result) (adj : Option Bool) (d : List Byte) :
    KeepsAllBut s (s.reply kind tag r adj d) [.cnl] := keeps_modCnl _ _

/-! ## Notices and replies (R179, R182) -/

/-- R182: a notice changes the notice queue and the lost count alone, by what the queue holds. -/
theorem raise_spec (c : Cnl) (n : Notice) :
    (c.notices.length < 32 ∧ c.raise n = { c with notices := c.notices ++ [n] }) ∨
    (32 ≤ c.notices.length ∧ c.raise n = { c with lost := min 255 (c.lost + 1) }) := by
  unfold Cnl.raise
  rw [show Config.noticeSize = 32 from rfl]
  split
  · exact .inl ⟨‹_›, rfl⟩
  · exact .inr ⟨by omega, rfl⟩

/-- R179: a reply fills a reserved place, or a free one, or is not kept. -/
theorem fill_spec (c : Cnl) (r : Reply) :
    (0 < c.reserved ∧ c.fill r = { c with reserved := c.reserved - 1, replies := c.replies ++ [r] }) ∨
    (c.reserved = 0 ∧ c.replies.length < 4 ∧ c.fill r = { c with replies := c.replies ++ [r] }) ∨
    (c.reserved = 0 ∧ 4 ≤ c.replies.length ∧ c.fill r = c) := by
  unfold Cnl.fill
  rw [show Config.replySize = 4 from rfl]
  split
  · exact .inl ⟨‹_›, rfl⟩
  · split
    · exact .inr (.inl ⟨by omega, ‹_›, rfl⟩)
    · exact .inr (.inr ⟨by omega, by omega, rfl⟩)

theorem raise_bounded {c : Cnl} (h : c.Bounded) (n : Notice) : (c.raise n).Bounded := by
  obtain ⟨h1, h2, h3, h4⟩ := h
  obtain ⟨hl, e⟩ | ⟨hl, e⟩ := raise_spec c n <;> rw [e] <;>
    refine ⟨h1, h2, ?_, ?_⟩ <;> simp <;> omega

theorem fill_bounded {c : Cnl} (h : c.Bounded) (r : Reply) : (c.fill r).Bounded := by
  obtain ⟨h1, h2, h3, h4⟩ := h
  obtain ⟨hl, e⟩ | ⟨hl, hr, e⟩ | ⟨hl, hr, e⟩ := fill_spec c r <;> rw [e]
  · exact ⟨h1, by simp; omega, h3, h4⟩
  · exact ⟨h1, by simp; omega, h3, h4⟩
  · exact ⟨h1, h2, h3, h4⟩

theorem raise_line (c : Cnl) (n : Notice) : SameLine c (c.raise n) := by
  obtain ⟨_, e⟩ | ⟨_, e⟩ := raise_spec c n <;> rw [e] <;> rfl

theorem fill_line (c : Cnl) (r : Reply) : SameLine c (c.fill r) := by
  obtain ⟨_, e⟩ | ⟨_, _, e⟩ | ⟨_, _, e⟩ := fill_spec c r <;> rw [e] <;> rfl

theorem SameLine.trans {c d e : Cnl} (h : SameLine c d) (k : SameLine d e) : SameLine c e := by
  unfold SameLine at *
  rw [k, h]

/-! ## Lamps (R98, R99, R107) -/

/-- R98: a change of lamp state writes the lamp record, raises the event to the SHC and one LAMP notice. -/
theorem lampChange_spec (s : State) (p : Proj) (new : LampState) (cause : LampCause) :
    ((s.lampChange p new cause).alc.get p = (s.alc.get p).enter new cause) ∧
    ((s.lampChange p new cause).events = s.events ++ [.lampStateChange p new (s.alc.get p).state cause]) ∧
    ((s.lampChange p new cause).cnl = s.cnl.raise
      ⟨s.bck.time, ((s.alc.get p).enter new cause).notice p (s.alc.get p).state⟩) ∧
    KeepsAllBut s (s.lampChange p new cause) [.events, .cnl, .alc p] := by
  refine ⟨?_, rfl, ?_, ?_⟩
  · simp [State.lampChange]
  · simp [State.lampChange]
  · exact (((keeps_modAlc _ _ _).mono (by simp)).trans ((keeps_emit _ _).mono (by simp))).trans
      ((keeps_note _ _).mono (by simp))

/-- R100: a strike begins: the lamp record is prepared, STRIKING and in its first attempt. -/
theorem beginStrike_spec (s : State) (p : Proj) (cause : LampCause) :
    ((s.beginStrike p cause).alc.get p = ((s.alc.get p).prepareStrike.enter .striking cause).beginAttempt) ∧
    ((s.beginStrike p cause).events = s.events ++ [.lampStateChange p .striking (s.alc.get p).state cause]) ∧
    KeepsAllBut s (s.beginStrike p cause) [.events, .cnl, .alc p] := by
  have hl := lampChange_spec (s.modAlc p Alc.prepareStrike) p .striking cause
  refine ⟨?_, ?_, ?_⟩
  · simp [State.beginStrike, hl.1]
  · simp [State.beginStrike, hl.2.1, Alc.prepareStrike]
  · exact (((keeps_modAlc _ _ _).mono (by simp)).trans hl.2.2.2).trans ((keeps_modAlc _ _ _).mono (by simp))

/-- R107, R108: a lamp that is not DARK goes DARK; a DARK lamp is not touched. -/
theorem putOut_spec (s : State) (p : Proj) (cause : LampCause) :
    (((s.alc.get p).state = .dark ∧ s.putOut p cause = s) ∨
      ((s.alc.get p).state ≠ .dark ∧ s.putOut p cause = s.lampChange p .dark cause)) ∧
    ((s.putOut p cause).alc.get p).state = .dark ∧
    KeepsAllBut s (s.putOut p cause) [.events, .cnl, .alc p] := by
  unfold State.putOut
  split
  · exact ⟨.inl ⟨‹_›, rfl⟩, ‹_›, KeepsAllBut.refl _ _⟩
  · have hl := lampChange_spec s p .dark cause
    refine ⟨.inr ⟨‹_›, rfl⟩, ?_, hl.2.2.2⟩
    rw [hl.1]
    simp [Alc.enter]

/-- R99: an accepted STRIKE begins a strike; a refused one changes nothing. -/
theorem askStrike_spec (s : State) (p : Proj) :
    (s.strikeRefusal p = none ∧ s.askStrike p = (.accepted, s.beginStrike p .struck)) ∨
    (∃ r, s.strikeRefusal p = some r ∧ s.askStrike p = (r, s)) := by
  unfold State.askStrike
  split
  · exact .inr ⟨_, ‹_›, rfl⟩
  · exact .inl ⟨‹_›, rfl⟩

/-! ## House lights (R136) -/

/-- R136: a rank is written or released, the table arbitrated, and a change of winner noted. -/
theorem changeRank_spec (s : State) (sc : Screen) (r : Rank) (x : Option LightRequest) :
    ((s.changeRank sc r x).hlc.get sc = (s.hlc.get sc).change r x) ∧
    (((s.hlc.get sc).change r x).winner = (s.hlc.get sc).winner → (s.changeRank sc r x).cnl = s.cnl) ∧
    (((s.hlc.get sc).change r x).winner ≠ (s.hlc.get sc).winner → (s.changeRank sc r x).cnl = s.cnl.raise
      ⟨s.bck.time, lightsNotice sc (s.hlc.get sc).winner ((s.hlc.get sc).change r x)⟩) ∧
    KeepsAllBut s (s.changeRank sc r x) [.cnl, .hlc sc] := by
  unfold State.changeRank
  dsimp only
  split
  · next h =>
    simp at h
    refine ⟨by simp, fun _ => rfl, fun hn => absurd h hn, (keeps_modHlc _ _ _).mono (by simp)⟩
  · next h =>
    simp at h
    refine ⟨by simp, fun hw => absurd hw h, fun _ => by simp, ?_⟩
    exact ((keeps_modHlc _ _ _).mono (by simp)).trans ((keeps_note _ _).mono (by simp))

/-! ## Shutters (R155) -/

/-- R155, R171: a change of shutter state writes that shutter's record and raises one SHUTTER notice. -/
theorem moveShutter_spec (s : State) (p : Proj) (new : ShutterState) (reason : Option DropReason) :
    ((s.moveShutter p new reason).bsu = s.bsu.modShutter p (·.enter new reason)) ∧
    KeepsAllBut s (s.moveShutter p new reason) [.cnl, .bsu] :=
  ⟨rfl, ((keeps_modBsu _ _).mono (by simp)).trans ((keeps_note _ _).mono (by simp))⟩

/-- R158, R161, R164: a shutter that is up comes down; one that is down keeps its drop reason. -/
theorem putDown_spec (s : State) (p : Proj) (reason : DropReason) :
    (((s.bsu.shutters.get p).state = .dropped ∧ s.putDown p reason = s) ∨
      ((s.bsu.shutters.get p).state ≠ .dropped ∧ s.putDown p reason = s.moveShutter p .dropped (some reason))) ∧
    ((s.putDown p reason).bsu.shutters.get p).state = .dropped ∧
    KeepsAllBut s (s.putDown p reason) [.cnl, .bsu] := by
  unfold State.putDown
  split
  · exact ⟨.inl ⟨‹_›, rfl⟩, ‹_›, KeepsAllBut.refl _ _⟩
  · refine ⟨.inr ⟨‹_›, rfl⟩, ?_, (moveShutter_spec _ _ _ _).2⟩
    rw [(moveShutter_spec _ _ _ _).1]
    simp [Bsu.modShutter, Shutter.enter]

/-! ## The clock (R185) -/

theorem nextTime_spec (t : Nat) : nextTime t = min 4294967295 (t + 1) := rfl

end Sys2Proof.Machine
end

