-- ==== Sys2Proof/Laws/Inputs.lean ====
section
/-!
SUPPORT. The switch-type inputs (section 4.1): what the pins, the sample histories and the accepted levels read after
each of their updates, and what one sample can do, said once.
-/

namespace Sys2Proof.Machine

/-! ## Pins -/

theorem keeps_modPins (s : State) (f : Pins → Pins) : KeepsAllBut s (s.modPins f) [.pins] := by
  intro x hx; cases x <;> first | rfl | simp at hx

@[simp] theorem Pins.level_setLevel (x : Pins) (v : Bool) (i : SwitchInput) : (x.setLevel v i).level i = v := by
  cases i <;> simp [Pins.setLevel, Pins.level]

theorem Pins.level_setLevel_ne (x : Pins) (v : Bool) {i j : SwitchInput} (h : j ≠ i) :
    (x.setLevel v i).level j = x.level j := by
  cases i <;> cases j <;> simp_all [Pins.setLevel, Pins.level]

@[simp] theorem Pins.setLevel_level (x : Pins) (i : SwitchInput) : x.setLevel (x.level i) i = x := by
  cases i <;> simp [Pins.setLevel, Pins.level]

@[simp] theorem State.modPins_inputLevel (s : State) (f : Pins → Pins) (i : SwitchInput) :
    (s.modPins f).inputLevel i = s.inputLevel i := by cases i <;> rfl

@[simp] theorem State.modPins_samples (s : State) (f : Pins → Pins) (i : SwitchInput) :
    (s.modPins f).samples i = s.samples i := by cases i <;> rfl

/-! ## Sample histories (R75) -/

@[simp] theorem State.keepSamples_pins (s : State) (h : List Bool) (i : SwitchInput) :
    (s.keepSamples h i).pins = s.pins := by cases i <;> rfl
@[simp] theorem State.keepSamples_pending (s : State) (h : List Bool) (i : SwitchInput) :
    (s.keepSamples h i).pending = s.pending := by cases i <;> rfl
@[simp] theorem State.keepSamples_events (s : State) (h : List Bool) (i : SwitchInput) :
    (s.keepSamples h i).events = s.events := by cases i <;> rfl
@[simp] theorem State.keepSamples_cnl (s : State) (h : List Bool) (i : SwitchInput) :
    (s.keepSamples h i).cnl = s.cnl := by cases i <;> rfl
@[simp] theorem State.keepSamples_samples (s : State) (h : List Bool) (i : SwitchInput) :
    (s.keepSamples h i).samples i = h := by
  cases i <;> simp [State.keepSamples, State.samples, Bsu.modShutter]

theorem State.keepSamples_samples_ne (s : State) (h : List Bool) {i j : SwitchInput} (hij : j ≠ i) :
    (s.keepSamples h i).samples j = s.samples j := by
  cases i <;> cases j <;>
    simp_all [State.keepSamples, State.samples, Bsu.modShutter, Oct.get_set] <;> split <;> simp_all

/-- The filter's history is no part of what the block accepts. -/
@[simp] theorem State.keepSamples_inputLevel (s : State) (h : List Bool) (i j : SwitchInput) :
    (s.keepSamples h i).inputLevel j = s.inputLevel j := by
  cases i <;> cases j <;> simp [State.keepSamples, State.inputLevel, Bsu.modShutter, Oct.get_set] <;>
    split <;> simp_all

/-- R75: a clean change leaves the level at the pin and the two samples of it behind the old one. -/
theorem State.cleanChange_spec (s : State) (i : SwitchInput) (v : Bool) :
    ((s.cleanChange i v).pins = s.pins.setLevel v i) ∧ ((s.cleanChange i v).samples i = [!v, v, v]) ∧
    ∀ j, (s.cleanChange i v).inputLevel j = s.inputLevel j := by
  simp [State.cleanChange]

/-! ## The filter (R75, R76) -/

theorem shiftIn_three (a b c v : Bool) : shiftIn [a, b, c] v = [b, c, v] := rfl

/-- R75: a history within three samples stays so, and a shorter one grows by the sample. -/
theorem shiftIn_length {h : List Bool} (v : Bool) (hl : h.length ≤ 3) :
    (shiftIn h v).length = min 3 (h.length + 1) := by
  unfold shiftIn
  split <;> simp <;> omega

theorem accepted_three (a b c : Bool) : accepted [a, b, c] = some ((a && b) || (a && c) || (b && c)) := by
  cases a <;> cases b <;> cases c <;> rfl

/-- R76: no level is accepted before the third sample. -/
theorem accepted_short {h : List Bool} (hl : h.length < 3) : accepted h = none := by
  match h, hl with
  | [], _ => rfl
  | [_], _ => rfl
  | [_, _], _ => rfl
  | _ :: _ :: _ :: _, hl => simp at hl; omega

/-! ## One sample -/

/-- R75, R76: everything a sample can do: keep the history alone, settle the input, or bring an edge of it. -/
theorem sampleInput_spec (s : State) (i : SwitchInput) :
    let h := shiftIn (s.samples i) (s.pins.level i)
    (accepted h = none ∧ s.sampleInput i = s.keepSamples h i) ∨
    (∃ v, accepted h = some v ∧ s.inputLevel i = none ∧ s.sampleInput i = (s.keepSamples h i).settle v i) ∨
    (∃ v, accepted h = some v ∧ s.inputLevel i = some v ∧ s.sampleInput i = s.keepSamples h i) ∨
    (∃ v old, accepted h = some v ∧ s.inputLevel i = some old ∧ old ≠ v ∧
      s.sampleInput i = (s.keepSamples h i).inputEdge v i) := by
  simp only [State.sampleInput]
  cases hl : s.inputLevel i <;> cases ha : accepted (shiftIn (s.samples i) (s.pins.level i))
  · exact .inl ⟨rfl, rfl⟩
  · exact .inr (.inl ⟨_, rfl, rfl, rfl⟩)
  · exact .inl ⟨rfl, rfl⟩
  · rename_i old v
    by_cases h : old = v
    · subst h; exact .inr (.inr (.inl ⟨_, rfl, rfl, by simp⟩))
    · exact .inr (.inr (.inr ⟨_, _, rfl, rfl, h, by simp [h]⟩))

end Sys2Proof.Machine
end

