-- ==== Sys2Proof/Laws/PerInstr.lean ====
section
/-!
SUPPORT. Statements made command by command. `FrameFits`: the frame that brings a command, where a frame brings it
(10.4), is no longer than LEN can say (10.1: a body of at most 56 bytes).
-/

namespace Sys2Proof.Laws.FrameFits

/-- The body of the frame that brings `i` has at most 56 bytes. -/
def Statement (i : Instr) : Prop :=
  ∀ kind tag body, wellFormed i = true → encodeRequest i = some (kind, tag, body) → body.length ≤ 56

/-- No frame brings a command that is no request. -/
theorem of_event {i : Instr} (h : encodeRequest i = none) : Statement i :=
  fun _ _ _ _ he => nomatch h.symm.trans he

/-- A request whose body is `body`. -/
theorem of_request {i : Instr} {kind tag : Byte} {body : List Byte}
    (h : encodeRequest i = some (kind, tag, body)) (hl : body.length ≤ 56) : Statement i := fun _ _ b _ he =>
  have e : body = b := congrArg (fun x => x.2.2) (Option.some.inj (h.symm.trans he))
  e ▸ hl

theorem powerOn : ∀ straps, Statement (.powerOn straps) := fun _ => of_event rfl
theorem boothReset : ∀ tag force, Statement (.boothReset tag force) := fun _ _ => of_request rfl (Nat.le_of_ble_eq_true rfl)
theorem boothResetMade : ∀ straps, Statement (.boothResetMade straps) := fun _ => of_event rfl
theorem identify : ∀ tag, Statement (.identify tag) := fun _ => of_request rfl (Nat.le_of_ble_eq_true rfl)
theorem quiet : ∀ tag setting, Statement (.quiet tag setting) := fun _ _ => of_request rfl (Nat.le_of_ble_eq_true rfl)
theorem setClock : ∀ tag time, Statement (.setClock tag time) := fun _ _ => of_request rfl (Nat.le_of_ble_eq_true rfl)
theorem readClock : ∀ tag, Statement (.readClock tag) := fun _ => of_request rfl (Nat.le_of_ble_eq_true rfl)
theorem setScreen : ∀ tag screen fields, Statement (.setScreen tag screen fields) := fun _ _ _ => of_request rfl (Nat.le_of_ble_eq_true rfl)
theorem setLamp : ∀ tag lamp fields, Statement (.setLamp tag lamp fields) := fun _ _ _ => of_request rfl (Nat.le_of_ble_eq_true rfl)
theorem setAuditorium : ∀ tag aud floor, Statement (.setAuditorium tag aud floor) := fun _ _ _ => of_request rfl (Nat.le_of_ble_eq_true rfl)
theorem setPreset : ∀ tag aud preset house aisle stage fade, Statement (.setPreset tag aud preset house aisle stage fade) := fun _ _ _ _ _ _ _ => of_request rfl (Nat.le_of_ble_eq_true rfl)
theorem writeEntry : ∀ tag screen index kind area, Statement (.writeEntry tag screen index kind area) :=
  fun _ _ _ _ area kind tag body hw he => by
    have ha : area.length = 16 := by simpa [wellFormed] using hw
    exact of_request (i := .writeEntry _ _ _ _ area) rfl (by simp [ha]) kind tag body hw he
theorem clearStaged : ∀ tag screen, Statement (.clearStaged tag screen) := fun _ _ => of_request rfl (Nat.le_of_ble_eq_true rfl)
theorem readEntry : ∀ tag screen bank index, Statement (.readEntry tag screen bank index) := fun _ _ _ _ => of_request rfl (Nat.le_of_ble_eq_true rfl)
theorem switchProgramme : ∀ tag screen t0 tc np, Statement (.switchProgramme tag screen t0 tc np) := fun _ _ _ _ _ => of_request rfl (Nat.le_of_ble_eq_true rfl)
theorem cancelSwitch : ∀ tag screen, Statement (.cancelSwitch tag screen) := fun _ _ => of_request rfl (Nat.le_of_ble_eq_true rfl)
theorem confirmReel : ∀ tag screen bank index confirm, Statement (.confirmReel tag screen bank index confirm) := fun _ _ _ _ _ => of_request rfl (Nat.le_of_ble_eq_true rfl)
theorem withdrawConfirmation : ∀ tag screen bank index, Statement (.withdrawConfirmation tag screen bank index) := fun _ _ _ _ => of_request rfl (Nat.le_of_ble_eq_true rfl)
theorem start : ∀ tag screen, Statement (.start tag screen) := fun _ _ => of_request rfl (Nat.le_of_ble_eq_true rfl)
theorem resume : ∀ tag screen, Statement (.resume tag screen) := fun _ _ => of_request rfl (Nat.le_of_ble_eq_true rfl)
theorem abort : ∀ tag screen, Statement (.abort tag screen) := fun _ _ => of_request rfl (Nat.le_of_ble_eq_true rfl)
theorem changeNow : ∀ tag screen, Statement (.changeNow tag screen) := fun _ _ => of_request rfl (Nat.le_of_ble_eq_true rfl)
theorem strike : ∀ asker, Statement (.strike asker) :=
  fun asker => match asker with
  | .console _ _ => of_request rfl (Nat.le_of_ble_eq_true rfl)
  | .shc _ => of_event rfl
theorem extinguish : ∀ asker, Statement (.extinguish asker) :=
  fun asker => match asker with
  | .console _ _ => of_request rfl (Nat.le_of_ble_eq_true rfl)
  | .shc _ => of_event rfl
theorem setTrim : ∀ tag lamp length, Statement (.setTrim tag lamp length) := fun _ _ _ => of_request rfl (Nat.le_of_ble_eq_true rfl)
theorem setLights : ∀ tag aud mode preset house aisle stage fade, Statement (.setLights tag aud mode preset house aisle stage fade) := fun _ _ _ _ _ _ _ _ => of_request rfl (Nat.le_of_ble_eq_true rfl)
theorem releaseLights : ∀ tag aud, Statement (.releaseLights tag aud) := fun _ _ => of_request rfl (Nat.le_of_ble_eq_true rfl)
theorem raiseShutter : ∀ tag proj, Statement (.raiseShutter tag proj) := fun _ _ => of_request rfl (Nat.le_of_ble_eq_true rfl)
theorem dropShutter : ∀ tag proj, Statement (.dropShutter tag proj) := fun _ _ => of_request rfl (Nat.le_of_ble_eq_true rfl)
theorem raiseAlarm : ∀ tag, Statement (.raiseAlarm tag) := fun _ => of_request rfl (Nat.le_of_ble_eq_true rfl)
theorem clearFire : ∀ tag, Statement (.clearFire tag) := fun _ => of_request rfl (Nat.le_of_ble_eq_true rfl)
theorem clearEstop : ∀ tag, Statement (.clearEstop tag) := fun _ => of_request rfl (Nat.le_of_ble_eq_true rfl)
theorem readScreen : ∀ tag screen part, Statement (.readScreen tag screen part) := fun _ _ _ => of_request rfl (Nat.le_of_ble_eq_true rfl)
theorem readProjector : ∀ tag proj, Statement (.readProjector tag proj) := fun _ _ => of_request rfl (Nat.le_of_ble_eq_true rfl)
theorem readLamp : ∀ tag lamp part, Statement (.readLamp tag lamp part) := fun _ _ _ => of_request rfl (Nat.le_of_ble_eq_true rfl)
theorem readAuditorium : ∀ tag aud part, Statement (.readAuditorium tag aud part) := fun _ _ _ => of_request rfl (Nat.le_of_ble_eq_true rfl)
theorem readSafety : ∀ tag part, Statement (.readSafety tag part) := fun _ _ => of_request rfl (Nat.le_of_ble_eq_true rfl)
theorem byteReceived : ∀ byte stopAtMark, Statement (.byteReceived byte stopAtMark) := fun _ _ => of_event rfl
theorem gapTimerExpiry : Statement (.gapTimerExpiry) := of_event rfl
theorem lineBreak : Statement (.lineBreak) := of_event rfl
theorem lineReturnsToMark : Statement (.lineReturnsToMark) := of_event rfl
theorem takeFrame : Statement (.takeFrame) := of_event rfl
theorem frameStart : Statement (.frameStart) := of_event rfl
theorem frameSent : Statement (.frameSent) := of_event rfl
theorem secondTimerExpiry : Statement (.secondTimerExpiry) := of_event rfl
theorem boothSecondEvent : ∀ sc time, Statement (.boothSecondEvent sc time) := fun _ _ => of_event rfl
theorem clockSetEvent : ∀ sc old new, Statement (.clockSetEvent sc old new) := fun _ _ _ => of_event rfl
theorem motorOnCommand : ∀ p, Statement (.motorOnCommand p) := fun _ => of_event rfl
theorem motorStop : ∀ p, Statement (.motorStop p) := fun _ => of_event rfl
theorem cueWindowOpen : ∀ p cue centre, Statement (.cueWindowOpen p cue centre) := fun _ _ _ => of_event rfl
theorem cueWindowClose : ∀ p, Statement (.cueWindowClose p) := fun _ => of_event rfl
theorem tachPulse : ∀ p time, Statement (.tachPulse p time) := fun _ _ => of_event rfl
theorem markEdge : ∀ p, Statement (.markEdge p) := fun _ => of_event rfl
theorem loopOpeningEdge : ∀ p, Statement (.loopOpeningEdge p) := fun _ => of_event rfl
theorem loopClosingEdge : ∀ p, Statement (.loopClosingEdge p) := fun _ => of_event rfl
theorem runUpTimerExpiry : ∀ p, Statement (.runUpTimerExpiry p) := fun _ => of_event rfl
theorem stallTimerExpiry : ∀ p, Statement (.stallTimerExpiry p) := fun _ => of_event rfl
theorem atSpeedEvent : ∀ p count, Statement (.atSpeedEvent p count) := fun _ _ => of_event rfl
theorem cueFiredEvent : ∀ p cue how count, Statement (.cueFiredEvent p cue how count) := fun _ _ _ _ => of_event rfl
theorem pictureEndReached : ∀ p count, Statement (.pictureEndReached p count) := fun _ _ => of_event rfl
theorem runoutReached : ∀ p count, Statement (.runoutReached p count) := fun _ _ => of_event rfl
theorem runUpFail : ∀ p count, Statement (.runUpFail p count) := fun _ _ => of_event rfl
theorem lampStateChange : ∀ p new old cause, Statement (.lampStateChange p new old cause) := fun _ _ _ _ => of_event rfl
theorem setTrimAccepted : ∀ p, Statement (.setTrimAccepted p) := fun _ => of_event rfl
theorem filmBreak : ∀ p count, Statement (.filmBreak p count) := fun _ _ => of_event rfl
theorem stall : ∀ p count, Statement (.stall p count) := fun _ _ => of_event rfl
theorem refusedStart : ∀ p, Statement (.refusedStart p) := fun _ => of_event rfl
theorem breakOrStallEvent : ∀ p kind count, Statement (.breakOrStallEvent p kind count) := fun _ _ _ => of_event rfl
theorem shutterDropped : ∀ p reason, Statement (.shutterDropped p reason) := fun _ _ => of_event rfl
theorem fireEvent : ∀ sc, Statement (.fireEvent sc) := fun _ => of_event rfl
theorem emergencyStopEvent : ∀ sc, Statement (.emergencyStopEvent sc) := fun _ => of_event rfl
theorem arcSample : ∀ p vm im, Statement (.arcSample p vm im) := fun _ _ _ => of_event rfl
theorem strikerTimerExpiry : ∀ p, Statement (.strikerTimerExpiry p) := fun _ => of_event rfl
theorem attemptTimerExpiry : ∀ p, Statement (.attemptTimerExpiry p) := fun _ => of_event rfl
theorem coolOffTimerExpiry : ∀ p, Statement (.coolOffTimerExpiry p) := fun _ => of_event rfl
theorem bsuExtinguish : ∀ p reason, Statement (.bsuExtinguish p reason) := fun _ _ => of_event rfl
theorem post : ∀ sc rank preset, Statement (.post sc rank preset) := fun _ _ _ => of_event rfl
theorem haltRelease : ∀ sc, Statement (.haltRelease sc) := fun _ => of_event rfl
theorem fireWrite : ∀ sc, Statement (.fireWrite sc) := fun _ => of_event rfl
theorem fireRelease : ∀ sc, Statement (.fireRelease sc) := fun _ => of_event rfl
theorem fadeTick : ∀ sc, Statement (.fadeTick sc) := fun _ => of_event rfl
theorem zeroCrossPulse : ∀ time, Statement (.zeroCrossPulse time) := fun _ => of_event rfl
theorem silenceTimerExpiry : Statement (.silenceTimerExpiry) := of_event rfl
theorem lockChange : ∀ sc locked, Statement (.lockChange sc locked) := fun _ _ => of_event rfl
theorem halfCycleEvent : ∀ sc halfPeriod, Statement (.halfCycleEvent sc halfPeriod) := fun _ _ => of_event rfl
theorem firingTimerExpiry : ∀ sc ch, Statement (.firingTimerExpiry sc ch) := fun _ _ => of_event rfl
theorem fireInputEdge : ∀ asserted, Statement (.fireInputEdge asserted) := fun _ => of_event rfl
theorem emergencyStopInputEdge : ∀ asserted, Statement (.emergencyStopInputEdge asserted) := fun _ => of_event rfl
theorem exhaustProvingEdge : ∀ proven, Statement (.exhaustProvingEdge proven) := fun _ => of_event rfl
theorem shutterUpSensorEdge : ∀ p up, Statement (.shutterUpSensorEdge p up) := fun _ _ => of_event rfl
theorem provingTimerExpiry : Statement (.provingTimerExpiry) := of_event rfl
theorem lossTimerExpiry : Statement (.lossTimerExpiry) := of_event rfl
theorem raiseTimerExpiry : ∀ p, Statement (.raiseTimerExpiry p) := fun _ => of_event rfl
theorem inputSettling : ∀ input s1 s2 s3, Statement (.inputSettling input s1 s2 s3) := fun _ _ _ _ => of_event rfl
theorem cueSensorClearEdge : ∀ p, Statement (.cueSensorClearEdge p) := fun _ => of_event rfl

end Sys2Proof.Laws.FrameFits
end

