-- ==== Sys2Proof/Laws/Shows.lean ====
section
/-!
SUPPORT. What an event of a screen's SHC can do: `Moves sc s t` says that `t` comes from `s` by notices, events
raised, changes of the record of screen `sc` that keep its setup and the size of its banks, armings of its STOPPED
transports, accepted strikes, extinguishings and service records of its lamps, and nothing else; `Answers` adds the
one reply of a request. One lemma for each operation of chapters 1 to 3; each adds its operation to the end of a run
of moves.
-/

namespace Sys2Proof.Machine

/-! ## Changes of an SHC's record -/

/-- A change of an SHC's record that leaves the setup and the size of the banks. -/
def Shc.Kept (c d : Shc) : Prop := d.setup = c.setup ∧ (c.FullBanks → d.FullBanks)

namespace Shc.Kept

theorem same {c d : Shc} (h : d.setup = c.setup) (h0 : d.bank0 = c.bank0) (h1 : d.bank1 = c.bank1) : c.Kept d :=
  ⟨h, fun x => by unfold Shc.FullBanks; rw [h0, h1]; exact x⟩

theorem trans {c d e : Shc} (h : c.Kept d) (k : d.Kept e) : c.Kept e := ⟨k.1.trans h.1, fun x => k.2 (h.2 x)⟩

theorem setBank (c : Shc) (b : BankId) (es : List Entry) (h : c.FullBanks → es.length = 24) :
    c.Kept (c.setBank b es) := by
  cases b
  · exact ⟨rfl, fun x => ⟨h x, x.2⟩⟩
  · exact ⟨rfl, fun x => ⟨x.1, h x⟩⟩

theorem bank_length {c : Shc} (h : c.FullBanks) (b : BankId) : (c.bank b).length = 24 := by
  cases b
  · exact h.1
  · exact h.2

theorem modEntry (c : Shc) (b : BankId) (i : Nat) (f : Entry → Entry) : c.Kept (c.modEntry b i f) :=
  setBank c b _ fun h => (List.length_modify ..).trans (bank_length h b)

theorem enter (c : Shc) (i : Nat) (st : EntryState) : c.Kept (c.enter i st) := modEntry c _ i _

theorem mapActive (c : Shc) (f : Entry → Entry) : c.Kept (c.mapActive f) :=
  setBank c _ _ fun h => (List.length_map _).trans (bank_length h _)

theorem setMotor (c : Shc) (side : Side) (on : Bool) : c.Kept (c.setMotor side on) := by
  cases side <;> exact same rfl rfl rfl

theorem setDouser (c : Shc) (side : Side) (isOpen : Bool) : c.Kept (c.setDouser side isOpen) := by
  cases side <;> exact same rfl rfl rfl

theorem unconfirm (c : Shc) (side : Side) : c.Kept (c.unconfirm side) :=
  ⟨rfl, fun h => ⟨(List.length_map _).trans h.1, (List.length_map _).trans h.2⟩⟩

theorem changeover (c : Shc) (o : Nat) (out : Reel) (i : Nat) (inc : Reel) : c.Kept (c.changeover o out i inc) := by
  have h1 : c.Kept { (c.setDouser out.side false).setDouser inc.side true with sound := inc.side, muted := false } :=
    ((setDouser c _ _).trans (setDouser _ _ _)).trans (same rfl rfl rfl)
  exact (h1.trans ((enter _ i .onScreen).trans (enter _ o .runningOut))).trans (same rfl rfl rfl)

theorem pictureOn (c : Shc) (side : Side) : c.Kept (c.pictureOn side) := (setDouser c _ _).trans (same rfl rfl rfl)

theorem takeSwitch (c : Shc) (w : PendingSwitch) : c.Kept (c.takeSwitch w) :=
  (setBank c c.active _ fun h => (List.length_map _).trans (bank_length h _)).trans (same rfl rfl rfl)

theorem abort (c : Shc) : c.Kept c.abort := (mapActive c _).trans (same rfl rfl rfl)

end Shc.Kept

/-! ## Moves -/

/-- One move of the SHC of screen `sc`. -/
inductive Move (sc : Screen) : State → State → Prop
  | note (s : State) (b : NoticeBody) : Move sc s (s.note b)
  | emit (s : State) (e : Instr) : Move sc s (s.emit e)
  | shc (s : State) (f : Shc → Shc) (h : ∀ c : Shc, c.Kept (f c)) : Move sc s (s.modShc sc f)
  | arm (s : State) (side : Side) (lp : Nat) (h : (s.trm.get (sc.proj side)).state = .stopped) :
      Move sc s (s.modTrm (sc.proj side) (·.armFor lp))
  | strike (s : State) (side : Side) (h : s.strikeRefusal (sc.proj side) = none) :
      Move sc s (s.beginStrike (sc.proj side) .struck)
  | out (s : State) (side : Side) : Move sc s (s.shcExtinguish (sc.proj side))
  | service (s : State) (side : Side) (v : Option ServiceRecord) :
      Move sc s (s.modAlc (sc.proj side) fun a => { a with service := v })

/-- Any number of moves. -/
def Moves (sc : Screen) : State → State → Prop := Relation.ReflTransGen (Move sc)

/-- Any number of moves and one reply after them. -/
def Answers (sc : Screen) (s t : State) : Prop :=
  ∃ (u : State) (kind tag : Byte) (r : Result) (adj : Option Bool) (d : List Byte),
    Moves sc s u ∧ t = u.reply kind tag r adj d

variable {sc : Screen} {s t : State}

namespace Moves

theorem refl (s : State) : Moves sc s s := Relation.ReflTransGen.refl

theorem add {u : State} (h : Moves sc s t) (m : Move sc t u) : Moves sc s u := h.tail m

theorem trans {u : State} (h : Moves sc s t) (m : Moves sc t u) : Moves sc s u := Relation.ReflTransGen.trans h m

theorem note (h : Moves sc s t) (b : NoticeBody) : Moves sc s (t.note b) := h.add (.note t b)
theorem reply (h : Moves sc s t) (kind tag : Byte) (r : Result) (adj : Option Bool) (d : List Byte) :
    Answers sc s (t.reply kind tag r adj d) := ⟨t, kind, tag, r, adj, d, h, rfl⟩
theorem answer (h : Moves sc s t) (kind tag : Byte) (r : Result) : Answers sc s (t.answer kind tag r) :=
  h.reply kind tag r none []
theorem emit (h : Moves sc s t) (e : Instr) : Moves sc s (t.emit e) := h.add (.emit t e)
theorem shc (h : Moves sc s t) (f : Shc → Shc) (hf : ∀ c : Shc, c.Kept (f c)) : Moves sc s (t.modShc sc f) :=
  h.add (.shc t f hf)
/-- A change of the SHC's record outside its setup and its banks. -/
theorem field (h : Moves sc s t) (f : Shc → Shc) (h0 : ∀ c, (f c).setup = c.setup := by intro; rfl)
    (h1 : ∀ c, (f c).bank0 = c.bank0 := by intro; rfl) (h2 : ∀ c, (f c).bank1 = c.bank1 := by intro; rfl) :
    Moves sc s (t.modShc sc f) := h.shc f fun c => .same (h0 c) (h1 c) (h2 c)

/-! ### Chapters 1 and 3: notices, arming, strikes -/

theorem noteEntry (h : Moves sc s t) (b : BankId) (i : Nat) (r : Reel) (x : EntryReason) (short : Bool)
    (y : Option NotReady) : Moves sc s (t.noteEntry sc b i r x short y) := h.note _

theorem noteFault (h : Moves sc s t) (p : Nat) (res : Resolved) : Moves sc s (t.noteFault sc p res) := by
  unfold State.noteFault
  split
  · exact h.note _
  · exact h

theorem noteLost (h : Moves sc s t) (b : BankId) (i : Nat) (e : Entry) : Moves sc s (t.noteLost sc b i e) := by
  unfold State.noteLost
  split
  · split
    · exact h.noteEntry _ _ _ _ _ _
    · exact h
  · exact h

theorem noteLostAll (h : Moves sc s t) (b : BankId) (es : List Entry) (i : Nat) :
    Moves sc s (t.noteLostAll sc b es i) := by
  induction es generalizing t i with
  | nil => exact h
  | cons e es ih => exact ih (h.noteLost b i e) _

theorem noteMoved (h : Moves sc s t) (b : BankId) (side : Side) (es : List Entry) (i : Nat) :
    Moves sc s (t.noteMoved sc b side es i) := by
  induction es generalizing t i with
  | nil => exact h
  | cons e es ih =>
    unfold State.noteMoved
    split
    · split
      · exact ih (h.noteEntry _ _ _ _ _ _) _
      · exact ih h _
    · exact ih h _

theorem skip (h : Moves sc s t) (x : Schedule) (gone : Nat → Bool) (r : SchedReason) :
    Moves sc s (t.skip sc x gone r) := by
  unfold State.skip
  split
  · exact h
  · exact (h.field _).note _

theorem takeSwitch (h : Moves sc s t) (w : PendingSwitch) (now : Nat) : Moves sc s (t.takeSwitch sc w now) :=
  ((h.shc _ (by intro c; exact Shc.Kept.takeSwitch c _)).note _).skip _ _ _

theorem testSwitch (h : Moves sc s t) (now : Nat) : Moves sc s (t.testSwitch sc now) := by
  unfold State.testSwitch
  dsimp only
  split
  · exact h
  · split
    · exact h.takeSwitch _ _
    · exact h

/-- R54: a candidate found armable has its transport STOPPED. -/
theorem judge_armable {i : Nat} {r : Reel} {k : TrimCase} {short : Bool} {u : State}
    (he : t.judge sc i r k = (.armable short, u)) : (u.trm.get (sc.proj r.side)).state = .stopped := by
  unfold State.judge at he
  split at he
  · simp at he
  · next hb =>
    have ht : (t.trm.get (sc.proj r.side)).state = .stopped := by
      unfold State.blocker at hb
      by_contra hn
      dsimp only at hb
      split_ifs at hb
    have hu : u = t.noteFault sc (i + 1) ((t.shc.get sc).next i) := by
      dsimp only at he
      split at he
      · simp at he; exact he.2.symm
      · split at he <;> simp at he; exact he.2.symm
    rw [hu]
    unfold State.noteFault
    split <;> exact ht

theorem arm (h : Moves sc s t) (i : Nat) (r : Reel) (short : Bool)
    (hs : (t.trm.get (sc.proj r.side)).state = .stopped) : Moves sc s (t.arm sc i r short) :=
  ((h.shc _ (by intro c; exact Shc.Kept.modEntry c _ _ _)).add (.arm _ r.side r.lp hs)).noteEntry _ _ _ _ _ _

theorem askStrike (h : Moves sc s t) (side : Side) : Moves sc s (t.askStrike (sc.proj side)).2 := by
  unfold State.askStrike
  split
  · exact h
  · next hn => exact h.add (.strike _ side hn)

theorem strikeIncoming (h : Moves sc s t) (i : Nat) (r : Reel) : Moves sc s (t.strikeIncoming sc i r) := by
  have hs := h.askStrike r.side
  unfold State.strikeIncoming
  dsimp only
  split
  · exact h
  · split
    · next he => rw [he] at hs; exact hs
    · next he => rw [he] at hs; exact hs.noteEntry _ _ _ _ _ _

theorem dropStrikeFrame (h : Moves sc s t) : Moves sc s (t.dropStrikeFrame sc) := h.field _

theorem makeStrike (h : Moves sc s t) : Moves sc s (t.makeStrike sc) := by
  unfold State.makeStrike
  dsimp only
  split
  · exact h.dropStrikeFrame.strikeIncoming _ _
  · exact h.dropStrikeFrame

theorem placeStrike (h : Moves sc s t) (r : Reel) (fc n : Nat) : Moves sc s (t.placeStrike sc r fc n) := by
  unfold State.placeStrike
  dsimp only
  split
  · exact h.dropStrikeFrame
  · split
    · exact h.makeStrike
    · exact h.field _

theorem motorOn (h : Moves sc s t) (side : Side) : Moves sc s (t.motorOn (sc.proj side)) := by
  unfold State.motorOn
  rw [proj_screen]
  exact (h.shc _ (by intro c; exact Shc.Kept.setMotor c _ _)).emit _

theorem motorOff (h : Moves sc s t) (side : Side) : Moves sc s (t.motorOff (sc.proj side)) := by
  unfold State.motorOff
  rw [proj_screen]
  exact (h.shc _ (by intro c; exact Shc.Kept.setMotor c _ _)).emit _

theorem startIncoming (h : Moves sc s t) (i : Nat) (r : Reel) : Moves sc s (t.startIncoming sc i r) := by
  unfold State.startIncoming
  dsimp only
  split
  · exact h.motorOn _
  · exact (h.motorOn _).dropStrikeFrame.strikeIncoming _ _

theorem setTrimHold (h : Moves sc s t) (x : Option Nat) : Moves sc s (t.setTrimHold sc x) := h.field _

theorem judge (h : Moves sc s t) (i : Nat) (r : Reel) (k : TrimCase) : Moves sc s (t.judge sc i r k).2 := by
  unfold State.judge
  split
  · exact h
  · dsimp only
    split
    · exact h.noteFault _ _
    · split <;> exact h.noteFault _ _

theorem afterArming (h : Moves sc s t) (i : Nat) (r : Reel) (k : TrimCase) :
    Moves sc s (t.afterArming sc i r k) := by
  unfold State.afterArming
  split
  · exact h
  · split
    · exact h.placeStrike _ _ _
    · exact h.startIncoming _ _

theorem evaluateReel (h : Moves sc s t) (i : Nat) (r : Reel) : Moves sc s (t.evaluateReel sc i r) := by
  unfold State.evaluateReel
  dsimp only
  have hj := h.judge i r (t.evaluateCase sc)
  split
  · next he =>
    rw [he] at hj
    exact ((hj.arm _ _ _ (judge_armable he)).setTrimHold _).afterArming _ _ _
  · next he =>
    rw [he] at hj
    split
    · exact hj
    · exact (hj.noteEntry _ _ _ _ _ _).setTrimHold _
  · next he => rw [he] at hj; exact hj.setTrimHold _

theorem evaluate (h : Moves sc s t) : Moves sc s (t.evaluate sc) := by
  unfold State.evaluate
  dsimp only
  split
  · exact h
  · split
    · split
      · exact (h.noteFault _ _).setTrimHold _
      · exact (h.noteFault _ _).evaluateReel _ _
    · exact (h.noteFault _ _).setTrimHold _

theorem confirm (h : Moves sc s t) (b : BankId) (i : Nat) (side : Side) : Moves sc s (t.confirm sc b i side) := by
  unfold State.confirm
  dsimp only
  split
  · exact (((h.shc _ (by intro c; exact (Shc.Kept.unconfirm c _).trans (.modEntry _ _ _ _))).noteMoved _ _ _
      _).noteMoved _ _ _ _).evaluate
  · exact ((h.shc _ (by intro c; exact (Shc.Kept.unconfirm c _).trans (.modEntry _ _ _ _))).noteMoved _ _ _
      _).noteMoved _ _ _ _

/-! ### Chapter 3: cues and changeovers -/

theorem postShow (h : Moves sc s t) (n : Nat) : Moves sc s (t.postShow sc n) := h.emit _
theorem postHalt (h : Moves sc s t) (n : Nat) : Moves sc s (t.postHalt sc n) := h.emit _

theorem postPoint (h : Moves sc s t) (x : Option LightPoint) : Moves sc s (t.postPoint sc x) := by
  unfold State.postPoint
  split
  · exact h.postShow _
  · exact h

theorem lightStep (h : Moves sc s t) (r : Reel) (n : Nat) : Moves sc s (t.lightStep sc r n) := h.postPoint _
theorem lightReached (h : Moves sc s t) (r : Reel) (n : Nat) : Moves sc s (t.lightReached sc r n) := h.postPoint _

theorem serve (h : Moves sc s t) (i : Nat) (r : Reel) : Moves sc s (t.serve sc i r) :=
  h.add (.service _ r.side _)
theorem unserve (h : Moves sc s t) (side : Side) : Moves sc s (t.unserve (sc.proj side)) :=
  h.add (.service _ side none)

theorem changeover (h : Moves sc s t) (reopen : State → State)
    (hr : ∀ u, Moves sc s u → Moves sc s (reopen u)) (how : FiredAs) (o : Nat) (out : Reel) (i : Nat) (inc : Reel) :
    Moves sc s (t.changeover reopen sc how o out i inc) := by
  unfold State.changeover
  exact ((hr _ (((((h.shc _ (by intro c; exact Shc.Kept.changeover c _ _ _ _)).unserve _).serve _ _).emit
    _).lightStep _ _)).note _).evaluate

theorem standDown (h : Moves sc s t) (i : Nat) (r : Reel) : Moves sc s (t.standDown sc i r) := by
  unfold State.standDown
  dsimp only
  split
  · exact (h.motorOff _).shc _ (by intro c; exact (Shc.Kept.enter c _ _).trans (.same rfl rfl rfl))
  · exact h.shc _ (by intro c; exact (Shc.Kept.enter c _ _).trans (.same rfl rfl rfl))

theorem missChangeover (h : Moves sc s t) (how : FiredAs) (x : NotReady) (o : Nat) (out : Reel) :
    Moves sc s (t.missChangeover sc how x o out) := by
  unfold State.missChangeover
  dsimp only
  split
  · exact (h.standDown _ _).note _
  · exact h.dropStrikeFrame.note _

theorem changeoverCue (h : Moves sc s t) (reopen : State → State)
    (hr : ∀ u, Moves sc s u → Moves sc s (reopen u)) (how : FiredAs) (i : Nat) (r : Reel) :
    Moves sc s (t.changeoverCue reopen sc how i r) := by
  have hp : Moves sc s (t.setProgress sc .changeoverFired) := h.field _
  unfold State.changeoverCue
  dsimp only
  split
  · exact hp.noteFault _ _
  · exact hp.noteFault _ _
  · exact (hp.noteFault _ _).missChangeover _ _ _ _
  · split
    · split
      · exact (hp.noteFault _ _).changeover reopen hr _ _ _ _ _
      · exact (hp.noteFault _ _).missChangeover _ _ _ _
    · exact (hp.noteFault _ _).missChangeover _ _ _ _

theorem motorCue (h : Moves sc s t) (reopen : State → State)
    (hr : ∀ u, Moves sc s u → Moves sc s (reopen u)) : Moves sc s (t.motorCue reopen sc) := by
  have hp : Moves sc s (reopen (t.setProgress sc .motorFired)) := hr _ (h.field _)
  unfold State.motorCue
  dsimp only
  split
  · split
    · exact hp
    · exact hp.startIncoming _ _
  · exact hp

theorem openWindows (n : Nat) (h : Moves sc s t) : Moves sc s (State.openWindows sc n t) := by
  induction n generalizing t with
  | zero => exact h
  | succ n ih =>
    unfold State.openWindows
    dsimp only
    split
    · exact h
    · split
      · split
        · exact h.emit _
        · exact (h.note _).motorCue _ (fun _ hu => ih hu)
      · split
        · exact h.emit _
        · exact (h.note _).changeoverCue _ (fun _ hu => ih hu) _ _ _
      · exact h

theorem reopenWindows (h : Moves sc s t) : Moves sc s (t.reopenWindows sc) := h.openWindows _

/-! ### Chapter 2: performances -/

theorem noteScreen (h : Moves sc s t) (old : ScreenState) (cause : ScreenCause) (x : Option HaltReason) :
    Moves sc s (t.noteScreen sc old cause x) := h.note _

theorem shcExtinguish (h : Moves sc s t) (side : Side) : Moves sc s (t.shcExtinguish (sc.proj side)) :=
  h.add (.out _ side)

theorem runoutLamp (h : Moves sc s t) (side : Side) : Moves sc s (t.runoutLamp (sc.proj side)) := by
  unfold State.runoutLamp
  split
  · exact h
  · exact h.shcExtinguish _

theorem haltArmed (h : Moves sc s t) (c : Shc) : Moves sc s (t.haltArmed sc c) := by
  unfold State.haltArmed
  split
  · exact h
  · split
    · exact (h.shc _ (by intro c; exact Shc.Kept.enter c _ _)).noteEntry _ _ _ _ _ _
    · exact h

theorem tailLamp (h : Moves sc s t) (c : Shc) (side : Side) : Moves sc s (t.tailLamp sc c side) := by
  unfold State.tailLamp
  split
  · exact h.runoutLamp _
  · exact h

theorem haltTails (h : Moves sc s t) : Moves sc s (t.haltTails sc) :=
  ((h.shc _ (by intro c; exact Shc.Kept.mapActive c _)).tailLamp _ _).tailLamp _ _

theorem haltScreen (h : Moves sc s t) (reason : HaltReason) (rp : Option Proj) :
    Moves sc s (t.haltScreen sc reason rp) := by
  unfold State.haltScreen State.motorsOff
  exact (((((((h.field _).motorOff _).motorOff _).haltArmed _).haltTails.shc _ (by
    intro c; exact (Shc.Kept.mapActive c _).trans (.same rfl rfl rfl))).field _).postHalt _).noteScreen _ _ _

theorem addFurther (h : Moves sc s t) (reason : HaltReason) : Moves sc s (t.addFurther sc reason) := by
  unfold State.addFurther
  split
  · exact h
  · split
    · exact h
    · exact (h.field _).noteScreen _ _ _

theorem fault (h : Moves sc s t) (reason : HaltReason) (rp : Option Proj) (x y : Bool) :
    Moves sc s (t.fault sc reason rp x y) := by
  unfold State.fault
  split
  · exact h
  · split
    · exact h.addFurther _
    · exact h
  · split
    · exact h.haltScreen _ _
    · exact h

theorem lampStep (h : Moves sc s t) (side : Side) : Moves sc s (t.lampStep (sc.proj side)) := by
  have hs := h.askStrike side
  unfold State.lampStep
  split
  · exact h.motorOn _
  · exact h
  · exact h
  · split
    · next he => rw [he] at hs; exact hs
    · next he => rw [he] at hs; rw [proj_screen]; exact hs.haltScreen _ _

theorem bringUp (h : Moves sc s t) (kind : PrepKind) (i : Nat) (r : Reel) (short : Bool) (cause : ScreenCause)
    (hk : kind = .resume ∨ ((t.shc.get sc).entry i).state = .armed ∨ (t.trm.get (sc.proj r.side)).state = .stopped) :
    Moves sc s (t.bringUp sc kind i r short cause) := by
  unfold State.bringUp
  dsimp only
  refine lampStep (sc := sc) ?_ r.side
  have h1 : Moves sc s (if kind = .resume ∨ ((t.shc.get sc).entry i).state = .armed then t else t.arm sc i r short) := by
    split
    · exact h
    · next hn => exact h.arm _ _ _ (by tauto)
  have h2 := ((h1.field fun c => { c with current := i, prep := kind, state := .preparing }).noteScreen
    (t.shc.get sc).state cause none).field fun c => { c.blackout with schedule := c.schedule.map Schedule.clearMisses }
  split <;> split
  · exact (h2.postShow _).emit _
  · exact h2.emit _
  · exact h2.postShow _
  · exact h2

theorem resumeIncoming (h : Moves sc s t) : Moves sc s (t.resumeIncoming sc) := by
  unfold State.resumeIncoming
  dsimp only
  split
  · split
    · exact h.placeStrike _ _ _
    · split
      · exact h
      · exact h.startIncoming _ _
    · exact h
  · exact h

theorem showPicture (h : Moves sc s t) (i : Nat) (r : Reel) : Moves sc s (t.showPicture sc i r) := by
  unfold State.showPicture
  dsimp only
  refine evaluate (noteScreen ?_ _ _ _)
  split
  · exact (h.shc _ (by intro c; exact Shc.Kept.pictureOn c _)).reopenWindows.resumeIncoming
  · exact ((((h.shc _ (by intro c; exact Shc.Kept.pictureOn c _)).shc _ (by
      intro c; exact (Shc.Kept.enter c _ _).trans (.same rfl rfl rfl))).serve _ _).lightStep _ _).reopenWindows

theorem putPictureOn (h : Moves sc s t) (i : Nat) (r : Reel) : Moves sc s (t.putPictureOn sc i r) := by
  unfold State.putPictureOn
  dsimp only
  split
  · exact h.haltScreen _ _
  · split
    · exact h.haltScreen _ _
    · exact h.showPicture _ _

theorem endPerformance (h : Moves sc s t) : Moves sc s (t.endPerformance sc) :=
  (((h.shc _ (by
    intro c
    exact ((Shc.Kept.same rfl rfl rfl).trans (.mapActive ({ c with perfCount := satSucc 65535 c.perfCount } : Shc)
      _)).trans (.same rfl rfl rfl))).noteScreen _ _ _).note _).testSwitch _

theorem intervalPreStrike (h : Moves sc s t) : Moves sc s (t.intervalPreStrike sc) := by
  unfold State.intervalPreStrike
  dsimp only
  split
  · split
    · split
      · exact ((h.noteFault _ _).askStrike _).field _
      · exact h.noteFault _ _
    · exact h.noteFault _ _
  · exact h

theorem enterInterval (h : Moves sc s t) (i d q : Nat) (cause : ScreenCause) :
    Moves sc s (t.enterInterval sc i d q cause) :=
  ((((h.shc _ (by
    intro c; exact (Shc.Kept.enter c _ _).trans (.same rfl rfl rfl))).postShow _).evaluate).noteScreen _ _
    _).intervalPreStrike

theorem enterEnding (h : Moves sc s t) (cause : ScreenCause) : Moves sc s (t.enterEnding sc cause) :=
  ((h.postShow _).field _).noteScreen _ _ _

theorem gapArmed (h : Moves sc s t) : Moves sc s (t.gapArmed sc) := by
  unfold State.gapArmed
  dsimp only
  split
  · exact h
  · split
    · exact ((h.motorOff _).shc _ (by
        intro c; exact (Shc.Kept.enter c _ _).trans (.same rfl rfl rfl))).noteEntry _ _ _ _ _ _
    · exact h

theorem enterGap (h : Moves sc s t) (cause : ScreenCause) : Moves sc s (t.enterGap sc cause) :=
  ((((h.field _).postHalt _).gapArmed).evaluate).noteScreen _ _ _

theorem afterPicture (h : Moves sc s t) : Moves sc s (t.afterPicture sc) := by
  unfold State.afterPicture
  dsimp only
  split
  · exact (h.noteFault _ _).enterInterval _ _ _ _
  · exact (h.noteFault _ _).enterEnding _
  · exact (h.noteFault _ _).enterGap _
  · exact (h.noteFault _ _).enterGap _

theorem endPicture (h : Moves sc s t) (i : Nat) (r : Reel) : Moves sc s (t.endPicture sc i r) :=
  (((h.shc _ (by
    intro c
    exact ((Shc.Kept.setDouser c _ _).trans (.enter _ _ _)).trans (.same rfl rfl rfl))).unserve _).emit _).afterPicture

theorem endHeld (h : Moves sc s t) (i : Nat) (r : Reel) : Moves sc s (t.endHeld sc i r) :=
  ((h.shc _ (by intro c; exact (Shc.Kept.enter c _ _).trans (.same rfl rfl rfl))).unserve _).runoutLamp _

theorem judgeStart (h : Moves sc s t) (i : Nat) (r : Reel) : Moves sc s (t.judgeStart sc i r).2 := by
  unfold State.judgeStart
  dsimp only
  split
  · exact h
  · exact h.judge _ _ _

theorem judgeStart_ready {i : Nat} {r : Reel} {short : Bool} {u : State}
    (he : t.judgeStart sc i r = (.armable short, u)) :
    ((u.shc.get sc).entry i).state = .armed ∨ (u.trm.get (sc.proj r.side)).state = .stopped := by
  unfold State.judgeStart at he
  dsimp only at he
  split at he
  · next ha =>
    obtain ⟨-, rfl⟩ := Prod.mk.inj he
    exact .inl ha
  · exact .inr (judge_armable he)

theorem endInterval (h : Moves sc s t) : Moves sc s (t.endInterval sc) := by
  have h1 : Moves sc s (t.modShc sc fun c =>
      { c.enter c.current .done with preStrike := false, countdown := 0 }) :=
    h.shc _ (by intro c; exact (Shc.Kept.enter c _ _).trans (.same rfl rfl rfl))
  unfold State.endInterval
  dsimp only
  split
  · split
    · next he =>
      have hj := (h1.noteFault _ _).judgeStart _ _ |> (fun x => he ▸ x)
      exact hj.bringUp _ _ _ _ _ (.inr (judgeStart_ready he))
    · next he =>
      have hj := (h1.noteFault _ _).judgeStart _ _ |> (fun x => he ▸ x)
      exact hj.enterGap _
  · exact (h1.noteFault _ _).enterInterval _ _ _ _
  · exact (h1.noteFault _ _).enterGap _
  · split
    · exact (h1.noteFault _ _).enterEnding _
    · exact ((h1.noteFault _ _).postShow _).endPerformance

theorem intervalSecond (h : Moves sc s t) : Moves sc s (t.intervalSecond sc) := by
  unfold State.intervalSecond
  dsimp only
  split
  · split
    · exact (h.field _).endInterval
    · exact (h.field _).intervalPreStrike
  · exact h

theorem testStart (h : Moves sc s t) : Moves sc s (t.testStart sc).2 := by
  unfold State.testStart
  dsimp only
  split
  · split
    · next he =>
      have e := congrArg Prod.snd he
      dsimp only at e ⊢
      exact e ▸ (h.noteFault _ _).judge _ _ _
    · next he =>
      have e := congrArg Prod.snd he
      dsimp only at e ⊢
      exact e ▸ (h.noteFault _ _).judge _ _ _
  · exact h.noteFault _ _

theorem testStart_ready {i : Nat} {r : Reel} {short : Bool} {u : State}
    (he : t.testStart sc = (.ready i r short, u)) : (u.trm.get (sc.proj r.side)).state = .stopped := by
  unfold State.testStart at he
  dsimp only at he
  split at he
  · split at he
    · next hj =>
      simp at he
      obtain ⟨⟨rfl, rfl, rfl⟩, rfl⟩ := he
      exact judge_armable hj
    · simp at he
  · simp at he

theorem askStrike_shows {p : Proj} {x : Result} {u : State} (he : t.askStrike p = (x, u)) :
    u.trm = t.trm ∧ u.shc = t.shc := by
  unfold State.askStrike at he
  split at he
  · obtain ⟨-, rfl⟩ := Prod.mk.inj he; exact ⟨rfl, rfl⟩
  · obtain ⟨-, rfl⟩ := Prod.mk.inj he; exact ⟨rfl, rfl⟩

theorem strikeDark_shows {p : Proj} {x : Option NotReady} {u : State} (he : t.strikeDark p = (x, u)) :
    u.trm = t.trm ∧ u.shc = t.shc := by
  unfold State.strikeDark at he
  split at he
  · split at he
    · next ha => obtain ⟨-, rfl⟩ := Prod.mk.inj he; exact askStrike_shows ha
    · next ha => obtain ⟨-, rfl⟩ := Prod.mk.inj he; exact askStrike_shows ha
  · obtain ⟨-, rfl⟩ := Prod.mk.inj he; exact ⟨rfl, rfl⟩

theorem strikeDark (h : Moves sc s t) (side : Side) : Moves sc s (t.strikeDark (sc.proj side)).2 := by
  have hs := h.askStrike side
  unfold State.strikeDark
  split
  · split
    · next he => rw [he] at hs; exact hs
    · next he => rw [he] at hs; exact hs
  · exact h

theorem abort (h : Moves sc s t) : Moves sc s (t.abort sc) := by
  unfold State.abort State.motorsOff
  dsimp only
  exact ((((((((((h.field _).motorOff _).motorOff _).shcExtinguish _).shcExtinguish _).shc _ (by
    intro c; exact Shc.Kept.abort c)).unserve _).unserve _).emit _).postShow _).noteScreen _ _ _ |>.testSwitch _

/-! ### Chapter 1: the schedule -/

theorem setSchedule (h : Moves sc s t) (x : Option Schedule) : Moves sc s (t.setSchedule sc x) := h.field _

theorem missSlot (h : Moves sc s t) (x : Schedule) (r : SchedReason) (slot : Nat) :
    Moves sc s (t.missSlot sc x r slot) := by
  unfold State.missSlot
  dsimp only
  split
  · exact (h.note _).setSchedule _
  · split
    · exact ((h.note _).setSchedule _).note _
    · exact (h.note _).setSchedule _

theorem dealWait (h : Moves sc s t) (x : Schedule) (w now : Nat) : Moves sc s (t.dealWait sc x w now) := by
  have ht := h.testStart
  unfold State.dealWait
  dsimp only
  split
  · exact h.setSchedule _
  · split
    · next he => rw [he] at ht; exact (ht.setSchedule _).bringUp _ _ _ _ _ (.inr (.inr (by have hr := testStart_ready he; exact hr)))
    · next he =>
      rw [he] at ht
      split
      · exact ht.missSlot _ _ _
      · exact ht

theorem dealSlot (h : Moves sc s t) (x : Schedule) (now : Nat) : Moves sc s (t.dealSlot sc x now) := by
  have ht := h.testStart
  unfold State.dealSlot
  dsimp only
  split
  · exact h.missSlot _ _ _
  · split
    · next he => rw [he] at ht; exact (ht.setSchedule _).bringUp _ _ _ _ _ (.inr (.inr (by have hr := testStart_ready he; exact hr)))
    · next he =>
      rw [he] at ht
      split
      · exact ht.missSlot _ _ _
      · exact ht.setSchedule _

theorem slotPreStrike (h : Moves sc s t) (x : Schedule) (now : Nat) : Moves sc s (t.slotPreStrike sc x now) := by
  unfold State.slotPreStrike
  dsimp only
  split
  · exact h
  · split
    · split
      · split
        · exact ((h.noteFault _ _).setSchedule _).askStrike _
        · exact (h.noteFault _ _).setSchedule _
      · exact h.noteFault _ _
    · exact h.noteFault _ _

theorem boothSecond (h : Moves sc s t) (now : Nat) : Moves sc s (Machine.boothSecond sc now t) := by
  have h2 := h.intervalSecond.testSwitch now
  have h3 : Moves sc s (((t.intervalSecond sc).testSwitch sc now).waitSecond sc now) := by
    unfold State.waitSecond
    split
    · split
      · exact h2.dealWait _ _ _
      · exact h2
    · exact h2
  have h4 : Moves sc s ((((t.intervalSecond sc).testSwitch sc now).waitSecond sc now).slotSecond sc now) := by
    unfold State.slotSecond
    split
    · split
      · exact h3.dealSlot _ _
      · exact h3
    · exact h3
  unfold Machine.boothSecond State.preStrikeSecond
  split
  · exact h4.slotPreStrike _ _
  · exact h4

theorem clockSet (h : Moves sc s t) (old new : Nat) : Moves sc s (Machine.clockSet sc old new t) := by
  unfold Machine.clockSet
  split
  · split
    · exact h.skip _ _ _
    · exact h
  · exact h

/-! ### Requests -/

theorem writeEntry (h : Moves sc s t) {screen : Byte} (hs : screenOf screen = some sc) (tag index kind : Byte)
    (area : List Byte) : Answers sc s (Machine.writeEntry tag screen index kind area t) := by
  unfold Machine.writeEntry
  rw [hs]
  dsimp only
  split
  · next he _ =>
    obtain rfl := Option.some.inj he
    split
    · exact h.answer _ _ _
    · split
      · exact h.answer _ _ _
      · exact ((h.shc _ (by intro c; exact Shc.Kept.modEntry c _ _ _)).noteLost _ _ _).answer _ _ _
  · exact h.answer _ _ _

theorem clearStaged (h : Moves sc s t) {screen : Byte} (hs : screenOf screen = some sc) (tag : Byte) :
    Answers sc s (Machine.clearStaged tag screen t) := by
  unfold Machine.clearStaged
  rw [hs]
  dsimp only
  split
  · exact h.answer _ _ _
  · exact ((h.shc _ (by intro c; exact Shc.Kept.setBank c _ _ fun _ => rfl)).noteLostAll _ _ _).answer _ _ _

theorem switchProgramme (h : Moves sc s t) {screen : Byte} (hs : screenOf screen = some sc) (tag : Byte)
    (t0 tc : Word) (np : Half) : Answers sc s (Machine.switchProgramme tag screen t0 tc np t) := by
  unfold Machine.switchProgramme
  rw [hs]
  dsimp only
  repeat (split; · exact h.answer _ _ _)
  exact (h.field _).reply _ _ _ _ _

theorem cancelSwitch (h : Moves sc s t) {screen : Byte} (hs : screenOf screen = some sc) (tag : Byte) :
    Answers sc s (Machine.cancelSwitch tag screen t) := by
  unfold Machine.cancelSwitch
  rw [hs]
  dsimp only
  split
  · exact h.answer _ _ _
  · exact ((h.field _).note _).answer _ _ _

theorem confirmRequest (h : Moves sc s t) {screen : Byte} (hs : screenOf screen = some sc)
    (tag bank index confirm : Byte) : Answers sc s (Machine.confirmRequest tag screen bank index confirm t) := by
  unfold Machine.confirmRequest
  rw [hs]
  split
  · next he _ _ =>
    obtain rfl := Option.some.inj he
    split
    · split
      · unfold confirmReelOf
        dsimp only
        split
        · exact h.answer _ _ _
        · split
          · exact h.answer _ _ _
          · exact (h.confirm _ _ _).answer _ _ _
      · split
        · unfold withdrawReel
          dsimp only
          split
          · exact (h.shc _ (by intro c; exact Shc.Kept.modEntry c _ _ _)).answer _ _ _
          · split
            · exact h.answer _ _ _
            · exact (h.shc _ (by intro c; exact Shc.Kept.modEntry c _ _ _)).dropStrikeFrame.answer _ _ _
          · exact h.answer _ _ _
          · exact h.answer _ _ _
          · exact h.answer _ _ _
        · exact h.answer _ _ _
    · exact h.answer _ _ _
  · exact h.answer _ _ _

theorem start (h : Moves sc s t) {screen : Byte} (hs : screenOf screen = some sc) (tag : Byte) :
    Answers sc s (Machine.start tag screen t) := by
  have ht := h.testStart
  unfold Machine.start startScreen
  rw [hs]
  dsimp only
  repeat (split; · exact h.answer _ _ _)
  split
  · next he => rw [he] at ht; exact ht.answer _ _ _
  · next i r short s' he =>
    rw [he] at ht
    have hd := ht.strikeDark r.side
    split
    · next hd' => rw [hd'] at hd; exact hd.answer _ _ _
    · next hd' =>
      rw [hd'] at hd
      exact (hd.bringUp _ _ _ _ _ (.inr (.inr (by rw [(strikeDark_shows hd').1]; exact testStart_ready he)))).answer _ _ _

theorem checkReel (h : Moves sc s t) (i : Nat) (r : Reel) : Moves sc s (t.checkReel sc i r).2 := by
  have hj := h.judgeStart i r
  unfold State.checkReel
  split
  · next he => rw [he] at hj; exact hj
  · next s' he =>
    rw [he] at hj
    have hd := hj.strikeDark r.side
    split
    · next hd' => rw [hd'] at hd; exact hd
    · next hd' => rw [hd'] at hd; exact hd

/-- R46, R47: a reel that passes the check is ARMED, or its transport is STOPPED. -/
theorem checkReel_ready {i : Nat} {r : Reel} {short : Bool} {u : State}
    (he : t.checkReel sc i r = (.inr short, u)) :
    ((u.shc.get sc).entry i).state = .armed ∨ (u.trm.get (sc.proj r.side)).state = .stopped := by
  unfold State.checkReel at he
  split at he
  · simp at he
  · next hj =>
    split at he
    · simp at he
    · next hd =>
      obtain ⟨-, rfl⟩ := Prod.mk.inj he
      rw [(strikeDark_shows hd).1, (strikeDark_shows hd).2]
      exact judgeStart_ready hj

theorem leaveHalt_ready {i : Nat} {r : Reel}
    (h : ((t.shc.get sc).entry i).state = .armed ∨ (t.trm.get (sc.proj r.side)).state = .stopped) :
    (((t.leaveHalt sc).shc.get sc).entry i).state = .armed ∨
      ((t.leaveHalt sc).trm.get (sc.proj r.side)).state = .stopped := by
  refine h.imp (fun x => ?_) id
  rw [← x]
  simp [State.leaveHalt, Shc.entry, Shc.bank]

theorem leaveHalt (h : Moves sc s t) : Moves sc s (t.leaveHalt sc) := (h.field _).emit _

theorem resume (h : Moves sc s t) {screen : Byte} (hs : screenOf screen = some sc) (tag : Byte) :
    Answers sc s (Machine.resume tag screen t) := by
  unfold Machine.resume resumeScreen
  rw [hs]
  dsimp only
  split
  · exact h.answer _ _ _
  split
  · exact h.answer _ _ _
  · exact h.answer _ _ _
  · exact h.answer _ _ _
  · exact h.answer _ _ _
  · split
    · exact h.answer _ _ _
    · unfold resumeInterval
      split
      · exact h.answer _ _ _
      · exact h.endInterval.answer _ _ _
  · unfold resumeGap
    split
    · exact h.answer _ _ _
    · dsimp only
      split
      · next i r _ =>
        have hc := (h.noteFault ((t.shc.get sc).current + 1) ((t.shc.get sc).next (t.shc.get sc).current)).checkReel i r
        split
        · next he => rw [he] at hc; exact hc.answer _ _ _
        · next he => rw [he] at hc; exact (hc.bringUp _ _ _ _ _ (.inr (checkReel_ready he))).answer _ _ _
      · exact (h.noteFault _ _).answer _ _ _
  · unfold resumeHalted
    split
    · exact h.answer _ _ _
    split
    · exact h.answer _ _ _
    split
    · unfold resumePicture
      split
      · exact h.answer _ _ _
      · next i r _ =>
        dsimp only
        split
        · exact h.answer _ _ _
        split
        · exact h.answer _ _ _
        have ha := h.askStrike r.side
        split
        · next he =>
          split at he
          · obtain ⟨-, rfl⟩ := Prod.mk.inj he
            exact (h.leaveHalt.bringUp _ _ _ _ _ (.inl rfl)).answer _ _ _
          · rw [he] at ha
            exact (ha.leaveHalt.bringUp _ _ _ _ _ (.inl rfl)).answer _ _ _
        · next he =>
          split at he
          · obtain ⟨-, rfl⟩ := Prod.mk.inj he
            exact h.answer _ _ _
          · rw [he] at ha
            exact ha.answer _ _ _
    · unfold resumeReel
      split
      · next r _ =>
        have hc := h.checkReel ‹HaltRecord›.index r
        split
        · next he => rw [he] at hc; exact hc.answer _ _ _
        · next he =>
        rw [he] at hc
        exact (hc.leaveHalt.bringUp _ _ _ _ _ (.inr (leaveHalt_ready (checkReel_ready he)))).answer _ _ _
      · exact h.answer _ _ _
    · unfold resumeAfter
      dsimp only
      split
      · exact (h.noteFault _ _).answer _ _ _
      · exact ((h.noteFault _ _).leaveHalt.enterInterval _ _ _ _).answer _ _ _
      · exact (((h.noteFault _ _).leaveHalt.postShow _).endPerformance).answer _ _ _
      · next j r _ =>
        have hc := (h.noteFault (‹HaltRecord›.index + 1) ((t.shc.get sc).next ‹HaltRecord›.index)).checkReel j r
        split
        · next he => rw [he] at hc; exact hc.answer _ _ _
        · next he =>
        rw [he] at hc
        exact (hc.leaveHalt.bringUp _ _ _ _ _ (.inr (leaveHalt_ready (checkReel_ready he)))).answer _ _ _

theorem abortRequest (h : Moves sc s t) {screen : Byte} (hs : screenOf screen = some sc) (tag : Byte) :
    Answers sc s (Machine.abort tag screen t) := by
  unfold Machine.abort
  rw [hs]
  dsimp only
  split
  · exact h.answer _ _ _
  · exact h.abort.answer _ _ _

theorem changeNow (h : Moves sc s t) {screen : Byte} (hs : screenOf screen = some sc) (tag : Byte) :
    Answers sc s (Machine.changeNow tag screen t) := by
  unfold Machine.changeNow
  rw [hs]
  dsimp only
  split
  · exact h.answer _ _ _
  · split
    · split
      · exact (h.changeover _ (fun _ hu => hu.openWindows _) _ _ _ _ _).answer _ _ _
      · exact h.answer _ _ _
    · exact h.answer _ _ _

end Moves

/-! ### Events that reach the SHC of projector `p`'s screen -/

namespace Moves

variable {p : Proj}

theorem countAdvanced (h : Moves p.screen s t) : Moves p.screen s (Machine.countAdvanced p t) := by
  unfold Machine.countAdvanced
  dsimp only
  split
  · split
    · exact h.putPictureOn _ _
    · split
      · exact h.lightReached _ _
      · exact h
  · split
    · split
      · split
        · exact (h.lightReached _ _).makeStrike
        · exact h.lightReached _ _
      · exact h.lightReached _ _
    · exact h

theorem cueFired (h : Moves p.screen s t) (cue : Cue) (how : FiredAs) :
    Moves p.screen s (Machine.cueFired p cue how t) := by
  unfold Machine.cueFired
  dsimp only
  split
  · split
    · exact (h.emit _).motorCue _ (fun _ hu => hu.openWindows _)
    · exact (h.emit _).changeoverCue _ (fun _ hu => hu.openWindows _) _ _ _
  · exact h

theorem atSpeedSeen (h : Moves p.screen s t) : Moves p.screen s (Machine.atSpeedSeen p t) := by
  unfold Machine.atSpeedSeen
  dsimp only
  split
  · split
    · exact h.putPictureOn _ _
    · exact h
  · exact h

theorem pictureEnded (h : Moves p.screen s t) : Moves p.screen s (Machine.pictureEnded p t) := by
  unfold Machine.pictureEnded
  dsimp only
  split
  · exact h
  · split
    · exact h.endPicture _ _
    · exact h.endPicture _ _
    · exact h.endHeld _ _
    · exact h

theorem runoutSeen (h : Moves p.screen s t) : Moves p.screen s (Machine.runoutSeen p t) := by
  unfold Machine.runoutSeen
  split
  · unfold State.runOut
    dsimp only
    have hm : Moves p.screen s (t.motorOff p) := by
      have := h.motorOff p.side
      rwa [screen_proj] at this
    have hl := fun u (hu : Moves p.screen s u) => by
      have := hu.runoutLamp p.side
      rwa [screen_proj] at this
    split
    · split
      · exact (hl _ ((hm.shc _ (by intro c; exact Shc.Kept.enter c _ _)).noteEntry _ _ _ _ _ _)).endPerformance
      · exact hl _ ((hm.shc _ (by intro c; exact Shc.Kept.enter c _ _)).noteEntry _ _ _ _ _ _)
    · exact (hl _ ((hm.shc _ (by intro c; exact Shc.Kept.enter c _ _)).noteEntry _ _ _ _ _ _)).evaluate
    · exact (hl _ ((hm.shc _ (by intro c; exact Shc.Kept.enter c _ _)).noteEntry _ _ _ _ _ _)).evaluate
    · exact (hl _ ((hm.shc _ (by intro c; exact Shc.Kept.enter c _ _)).noteEntry _ _ _ _ _ _)).evaluate
    · exact hl _ ((hm.shc _ (by intro c; exact Shc.Kept.enter c _ _)).noteEntry _ _ _ _ _ _)
  · exact h

theorem lampChanged (h : Moves p.screen s t) (new : LampState) (cause : LampCause) :
    Moves p.screen s (Machine.lampChanged p new cause t) := by
  unfold Machine.lampChanged
  dsimp only
  split
  · split
    · split
      · exact h.addFurther _
      · exact h
    · exact h
  · split
    · split
      · exact h.haltScreen _ _
      · split
        · have := h.motorOn p.side
          rwa [screen_proj] at this
        · exact h
    · exact h
  · split
    · split
      · exact h.haltScreen _ _
      · exact h.evaluate
    · exact h.evaluate
  · exact h.evaluate
  · exact h.evaluate
  · exact h
  · exact h

end Moves

end Sys2Proof.Machine
end

