-- ==== Sys2Proof/Laws/Screens.lean ====
section
/-!
SUPPORT. What every event of a screen's SHC keeps, read off its moves: the records of the other screens and
blocks, the transports but for an arming, the lamps but for a strike, an extinguishing and a service record, the
bounds of the Console Link's queues.
-/

namespace Sys2Proof.Machine

variable {sc : Screen} {s t : State}

theorem mem_screenParts_trm (sc : Screen) (side : Side) : Part.trm (sc.proj side) ∈ screenParts sc := by
  cases side <;> simp [screenParts]

theorem mem_screenParts_alc (sc : Screen) (side : Side) : Part.alc (sc.proj side) ∈ screenParts sc := by
  cases side <;> simp [screenParts]

/-- One move changes nothing but what the screen owns. -/
theorem Move.keeps (h : Move sc s t) : KeepsAllBut s t (screenParts sc) := by
  cases h with
  | note b => exact (keeps_note _ _).mono (by simp [screenParts])
  | emit => exact (keeps_emit _ _).mono (by simp [screenParts])
  | shc f _ => exact (keeps_modShc _ _ _).mono (by simp [screenParts])
  | arm side lp _ => exact (keeps_modTrm _ _ _).mono (by simpa using mem_screenParts_trm sc side)
  | strike side _ =>
    refine (beginStrike_spec _ _ _).2.2.mono ?_
    simpa [mem_screenParts_alc] using by simp [screenParts]
  | out side =>
    refine (putOut_spec _ _ _).2.2.mono ?_
    simpa [mem_screenParts_alc] using by simp [screenParts]
  | service side v => exact (keeps_modAlc _ _ _).mono (by simpa using mem_screenParts_alc sc side)

/-- An event of a screen changes nothing but what the screen owns. -/
theorem Moves.keeps (h : Moves sc s t) : KeepsAllBut s t (screenParts sc) := by
  induction h with
  | refl => exact KeepsAllBut.refl _ _
  | tail _ m ih => exact ih.trans m.keeps

/-- A request of a screen changes nothing but what the screen owns. -/
theorem Answers.keeps (h : Answers sc s t) : KeepsAllBut s t (screenParts sc) := by
  obtain ⟨u, k, tag, r, adj, d, hm, rfl⟩ := h
  exact hm.keeps.trans ((keeps_reply _ _ _ _ _ _).mono (by simp [screenParts]))

/-- A transport keeps what an arming of a STOPPED transport keeps. -/
theorem Moves.trm_inv (h : Moves sc s t) {P : Trm → Prop}
    (ha : ∀ (x : Trm) lp, x.state = .stopped → P x → P (x.armFor lp)) (q : Proj)
    (hs : P (s.trm.get q)) : P (t.trm.get q) := by
  induction h with
  | refl => exact hs
  | @tail u _ _ m ih =>
    cases m with
    | arm side lp hx =>
      simp only [State.modTrm_trm, Oct.get_set]
      split
      · next e => exact ha _ _ hx (e ▸ ih)
      · exact ih
    | strike side _ =>
      have := (beginStrike_spec u (sc.proj side) .struck).2.2 (.trm q) (by simp)
      simp only [Same] at this
      rw [this]; exact ih
    | out side =>
      have := (putOut_spec u (sc.proj side) (.extinguished .show_)).2.2 (.trm q) (by simp)
      simp only [Same] at this
      rw [State.shcExtinguish, this]; exact ih
    | _ => exact ih

/-- A lamp keeps what a strike of an unlit lamp, a change to DARK and a service record keep. -/
theorem Moves.alc_inv (h : Moves sc s t) {P : Alc → Prop}
    (hb : ∀ a, a.state.lit = false → a.remaining ≠ 0 → P a → P ((a.prepareStrike.enter .striking .struck).beginAttempt))
    (hd : ∀ a, P a → P (a.enter .dark (.extinguished .show_)))
    (hv : ∀ (a : Alc) v, P a → P { a with service := v }) (q : Proj) (hs : P (s.alc.get q)) : P (t.alc.get q) := by
  induction h with
  | refl => exact hs
  | @tail u _ _ m ih =>
    cases m with
    | strike side hn =>
      by_cases e : q = sc.proj side
      · subst e
        rw [(beginStrike_spec _ _ _).1]
        unfold State.strikeRefusal at hn
        dsimp only at hn
        split at hn
        · cases hn
        split at hn
        · cases hn
        exact hb _ (by simpa using ‹¬(u.alc.get (sc.proj side)).state.lit = true›) ‹_› ih
      · have := (beginStrike_spec u (sc.proj side) .struck).2.2 (.alc q) (by simp [e])
        simp only [Same] at this
        rw [this]; exact ih
    | out side =>
      by_cases e : q = sc.proj side
      · subst e
        unfold State.shcExtinguish
        obtain ⟨_, e⟩ | ⟨_, e⟩ := (putOut_spec u (sc.proj side) (.extinguished .show_)).1 <;> rw [e]
        · exact ih
        · rw [(lampChange_spec _ _ _ _).1]; exact hd _ ih
      · have := (putOut_spec u (sc.proj side) (.extinguished .show_)).2.2 (.alc q) (by simp [e])
        simp only [Same] at this
        rw [State.shcExtinguish, this]; exact ih
    | service side v =>
      simp only [State.modAlc_alc, Oct.get_set]
      split
      · next e => exact hv _ _ (e ▸ ih)
      · exact ih
    | _ => exact ih

/-- The Console Link takes notices alone. -/
theorem Move.noted (h : Move sc s t) : ∃ ns : List Notice, t.cnl = ns.foldl Cnl.raise s.cnl := by
  cases h with
  | note b => exact ⟨[⟨s.bck.time, b⟩], rfl⟩
  | strike side _ =>
    unfold State.beginStrike
    simp only [State.modAlc_cnl, (lampChange_spec _ _ _ _).2.2.1]
    exact ⟨[_], rfl⟩
  | out side =>
    unfold State.shcExtinguish
    obtain ⟨_, e⟩ | ⟨_, e⟩ := (putOut_spec s (sc.proj side) (.extinguished .show_)).1 <;> rw [e]
    · exact ⟨[], rfl⟩
    · rw [(lampChange_spec _ _ _ _).2.2.1]; exact ⟨[_], rfl⟩
  | _ => exact ⟨[], rfl⟩

theorem Noted.refl (c : Cnl) : Noted c c := ⟨[], rfl⟩

theorem Noted.trans {c d e : Cnl} (h : Noted c d) (k : Noted d e) : Noted c e := by
  obtain ⟨ns, rfl⟩ := h
  obtain ⟨ms, rfl⟩ := k
  exact ⟨ns ++ ms, by rw [List.foldl_append]⟩

/-- The Console Link's record takes notices alone in a run of moves. -/
theorem Moves.noted (h : Moves sc s t) : Noted s.cnl t.cnl := by
  induction h with
  | refl => exact Noted.refl _
  | tail _ m ih => exact ih.trans m.noted

/-- A request of a screen gives the Console Link notices and then one reply. -/
theorem Answers.answered (h : Answers sc s t) : ∃ r, Answered s.cnl t.cnl r := by
  obtain ⟨u, k, tag, r, adj, d, hm, rfl⟩ := h
  obtain ⟨ns, e⟩ := hm.noted
  exact ⟨_, ns, by rw [← e]; rfl⟩

/-- Notices leave what the Console Link does not send from as it was. -/
theorem Noted.line {c d : Cnl} (h : Noted c d) : SameLine c d := by
  obtain ⟨ns, rfl⟩ := h
  induction ns generalizing c with
  | nil => rfl
  | cons n ns ih => exact (raise_line c n).trans ih

/-- An event of a screen leaves the line, the receiver, the transmission and the settings of the Console Link. -/
theorem Moves.line (h : Moves sc s t) : SameLine s.cnl t.cnl := h.noted.line

/-- A request of a screen leaves them too. -/
theorem Answers.line (h : Answers sc s t) : SameLine s.cnl t.cnl := by
  obtain ⟨r, ns, e⟩ := h.answered
  rw [e]
  exact (Noted.line ⟨ns, rfl⟩).trans (fill_line _ r)

theorem Noted.bounded {c d : Cnl} (h : Noted c d) (hc : c.Bounded) : d.Bounded := by
  obtain ⟨ns, rfl⟩ := h
  induction ns generalizing c with
  | nil => exact hc
  | cons n ns ih => exact ih (raise_bounded hc n)

theorem Moves.bounded (h : Moves sc s t) (hs : s.cnl.Bounded) : t.cnl.Bounded := h.noted.bounded hs

theorem Answers.bounded (h : Answers sc s t) (hs : s.cnl.Bounded) : t.cnl.Bounded := by
  obtain ⟨r, ns, e⟩ := h.answered
  rw [e]
  exact fill_bounded (Noted.bounded ⟨ns, rfl⟩ hs) r

/-- Events are added after those not yet taken. -/
theorem Moves.events (h : Moves sc s t) : ∃ es, t.events = s.events ++ es := by
  induction h with
  | refl => exact ⟨[], by simp⟩
  | @tail u _ _ m ih =>
    obtain ⟨es, e⟩ := ih
    cases m with
    | emit x => exact ⟨es ++ [x], by simp [e]⟩
    | strike side _ => exact ⟨es ++ [_], by rw [(beginStrike_spec u _ _).2.1, e, List.append_assoc]⟩
    | out side =>
      unfold State.shcExtinguish
      obtain ⟨_, d⟩ | ⟨_, d⟩ := (putOut_spec u (sc.proj side) (.extinguished .show_)).1 <;> rw [d]
      · exact ⟨es, e⟩
      · exact ⟨es ++ [_], by rw [(lampChange_spec _ _ _ _).2.1, e, List.append_assoc]⟩
    | _ => exact ⟨es, e⟩

/-- The SHC's record of the screen keeps its setup and the size of its banks. -/
theorem Moves.kept (h : Moves sc s t) : (s.shc.get sc).Kept (t.shc.get sc) := by
  induction h with
  | refl => exact .same rfl rfl rfl
  | @tail u _ _ m ih =>
    cases m with
    | shc f hf =>
      have := hf (u.shc.get sc)
      exact ih.trans (by simpa using this)
    | strike side _ =>
      have := (beginStrike_spec u (sc.proj side) .struck).2.2 (.shc sc) (by simp)
      simp only [Same] at this
      rw [this]; exact ih
    | out side =>
      have := (putOut_spec u (sc.proj side) (.extinguished .show_)).2.2 (.shc sc) (by simp)
      simp only [Same] at this
      rw [State.shcExtinguish, this]; exact ih
    | _ => exact ih

end Sys2Proof.Machine
end

