-- ==== Sys2Proof/Tests/Slice0.lean ====
section
/-!
SUPPORT. Tests: the ill-formed commands that WellFormed refuses; cases worked in the manual, one step each; and for
each statement with premises a witness, named after it, of concrete states and operands that meet the premises of its
clauses, at the ends of their ranges.
-/

namespace Sys2Proof.Tests

open Sys2Proof.Machine

/-! ## Small states -/

/-- The state after a list of commands; every command goes on. -/
def after (l : List Instr) (s : State) : State :=
  match execAll l s with
  | .next t => t
  | _ => s

/-- Every projector of the list of chapter 11's programme, screen 2: reel on side A, reel on side B, interval, end. -/
def reelA : Reel := ⟨.a, 28800, 28392, 28584, 101, [⟨0, 2⟩]⟩
def reelB : Reel := ⟨.b, 30000, 29712, 29904, 102, []⟩
def programme (a b : EntryState) : List Entry :=
  [⟨.reel reelA, a, false⟩, ⟨.reel reelB, b, false⟩, ⟨.interval 600 3, .loaded, false⟩, ⟨.finish, .loaded, false⟩] ++
    List.replicate 20 Entry.blank

/-- A screen record with that programme in bank 0, active. -/
def screen (a b : EntryState) : Shc := { Shc.reset with bank0 := programme a b }

/-- Three samples of one level. -/
def three (v : Bool) : List Bool := [v, v, v]

/-- Exhaust proven, shutters 3 and 4 RAISED with clear vetoes, loops CLOSED, trims fitted, clock set; the pins and
the sample histories as the accepted levels are. -/
def booth (c : Shc) : State :=
  let x : Shutter := ⟨.raised, .power, false, some true, three true⟩
  { State.reset with
    pins := { Pins.quiet with
      loop := Oct.const true, up := ((Oct.const false).set .p3 true).set .p4 true, exhaust := true }
    bck := ⟨64000, true, true⟩
    bsu := { Bsu.reset with
      proven := true, fireInput := some false, estopInput := some false, exhaustInput := some true,
      fireSamples := three false, estopSamples := three false, exhaustSamples := three true,
      shutters := ((Oct.const Shutter.reset).set .p3 x).set .p4 x,
      vetoes := ((Oct.const (some VetoCause.power)).set .p3 none).set .p4 none }
    trm := Oct.const { Trm.reset with
      loopClosed := some true, cueMark := some false, loopSamples := three true, cueSamples := three false }
    alc := Oct.const { Alc.reset with trim := 16000 }
    shc := (Quad.const Shc.reset).set .s2 c }

/-- A lamp of screen 2 in another state. -/
def lampAs (p : Proj) (x : LampState) (s : State) : State :=
  s.modAlc p fun a => { a with state := x, vm := 350, im := 70 }

/-- A transport of screen 2 running at a count. -/
def running (p : Proj) (x : TransportState) (n l : Nat) (s : State) : State :=
  s.modTrm p fun t => { t with
    motor := true, state := x, count := n, runLength := some l, runUpTimer := decide (x = .runUp),
    stallTimer := decide (x = .atSpeed), lastPulse := some 1000 }

/-- Screen 2 SHOWING entry 0 from projector 3. -/
def showing (b : EntryState) (progress : CueProgress) (n : Nat) : State :=
  lampAs .p3 .stable (running .p3 .atSpeed n 28800 (booth
    { screen .onScreen b with
      state := .showing, muted := false, douserA := true, motorA := true, progress := progress }))

/-- Screen 2 in another state. -/
def inState (x : ScreenState) (a b : EntryState) : State := booth { screen a b with state := x }

/-- A halt record of projector 3's film break. -/
def haltAt (point : ResumePoint) : HaltRecord := ⟨.filmBreak, some .p3, point, 0, 14403, 64000, []⟩
def halted (point : ResumePoint) (a b : EntryState) : State :=
  booth { screen a b with state := .halted, halt := some (haltAt point) }

/-- The fire state latched by the fire input. -/
def onFire (s : State) : State := after [.fireInputEdge true] s

/-! ## WellFormed refuses -/

theorem test_refuses_short_area : wellFormed (.writeEntry 1 2 0 1 [0]) = false := by decide
theorem test_refuses_confirm_clear : wellFormed (.confirmReel 1 2 0 0 0) = false := by decide
theorem test_refuses_late_second : wellFormed (.boothSecondEvent .s1 4294967296) = false := by decide
theorem test_refuses_late_clock : wellFormed (.clockSetEvent .s1 0 4294967296) = false := by decide
theorem test_refuses_centre_zero : wellFormed (.cueWindowOpen .p1 .motor 0) = false := by decide
theorem test_refuses_large_centre : wellFormed (.cueWindowOpen .p1 .motor 65536) = false := by decide
theorem test_refuses_large_counts :
    (wellFormed (.atSpeedEvent .p1 65536) || wellFormed (.pictureEndReached .p1 65536) ||
      wellFormed (.runoutReached .p1 65536) || wellFormed (.runUpFail .p1 65536) ||
      wellFormed (.filmBreak .p1 65536) || wellFormed (.stall .p1 65536) ||
      wellFormed (.breakOrStallEvent .p1 .stall 65536)) = false := by decide
theorem test_refuses_console_cue : wellFormed (.cueFiredEvent .p1 .motor .console 0) = false := by decide
theorem test_refuses_impossible_lamp_change : wellFormed (.lampStateChange .p1 .stable .dark .stable) = false := by decide
theorem test_refuses_break_drop : wellFormed (.shutterDropped .p1 .break_) = false := by decide
theorem test_refuses_large_sample : wellFormed (.arcSample .p1 1024 0) = false := by decide
theorem test_refuses_preset_eight : wellFormed (.post .s1 .show_ 8) = false := by decide
theorem test_refuses_short_half_cycle : wellFormed (.halfCycleEvent .s1 6999) = false := by decide
theorem test_accepts_ends_of_ranges :
    (wellFormed (.boothSecondEvent .s1 4294967295) && wellFormed (.atSpeedEvent .p1 65535) &&
      wellFormed (.arcSample .p1 1023 255) && wellFormed (.halfCycleEvent .s1 7000) &&
      wellFormed (.halfCycleEvent .s1 11000)) = true := by decide

/-! ## Cases worked in the manual -/

/-- 1.5, Example: resolving through LINKs. -/
def links : List Entry :=
  ([.reel reelA, .reel reelB, .link 5, .reel reelA, .finish, .link 6, .link 1, .link 7].map fun k =>
    (⟨k, .loaded, false⟩ : Entry)) ++ List.replicate 16 Entry.blank

theorem test_links_of_the_example :
    resolve links 0 = .reel 0 reelA ∧ nextAfter links 0 = .reel 1 reelB ∧ nextAfter links 1 = .fault 6 .linkChain ∧
    nextAfter links 3 = .finish ∧ nextAfter links 4 = .reel 1 reelB ∧ nextAfter links 6 = .fault 7 .selfLink ∧
    nextAfter links 7 = .fault 8 .emptyEntry ∧ nextAfter links 23 = .finish := by decide

/-- 11.2: a switch with base advance; the staged bank is chapter 11's. -/
def evening : List Entry :=
  [⟨.reel reelA, .confirmed, false⟩, ⟨.reel reelB, .loaded, false⟩, ⟨.interval 600 3, .loaded, false⟩,
    ⟨.reel ⟨.a, 27600, 27192, 27384, 103, [⟨96, 2⟩]⟩, .loaded, false⟩,
    ⟨.reel ⟨.b, 28800, 28392, 28584, 104, []⟩, .loaded, false⟩, ⟨.finish, .loaded, false⟩] ++
    List.replicate 18 Entry.blank

def staged (now : Nat) (x : Option PendingSwitch) : State :=
  let s := booth { Shc.reset with bank1 := evening, switch := x }
  { s with bck := ⟨now, true, true⟩ }

def switchAt (t0 tc : Word) : State := after [.switchProgramme 7 2 t0 tc 2] (staged 61000 none)

theorem test_switch_advances_twice :
    (switchAt 50000 7200).shc.s2.switch = some ⟨64400, 7200, 2⟩ ∧
    (switchAt 50000 7200).cnl.replies = [⟨0xAB, 7, .accepted, none, [2, 0, 0, 0xFB, 0x90]⟩] := by decide

theorem test_switch_refusals :
    (switchAt 50000 5399).cnl.replies = [⟨0xAB, 7, .cycleShort, none, []⟩] ∧
    (switchAt 50000 0).cnl.replies = [⟨0xAB, 7, .baseError, none, []⟩] := by decide

/-- 11.3: the second that brings booth time to 64,340 takes the switch and strikes lamp 3. -/
def taken : State := after [.boothSecondEvent .s2 64340] (staged 64340 (some ⟨64400, 7200, 2⟩))

theorem test_switch_taken_with_prestrike :
    taken.shc.s2.active = .b1 ∧ taken.shc.s2.schedule = some ⟨64400, 7200, 2, 0, 0, false, none, true⟩ ∧
    taken.shc.s2.switch = none ∧ taken.alc.p3.state = .striking := by decide

/-- 1.7, Example: a late switch. -/
def late : State :=
  after [.boothSecondEvent .s2 58000] (staged 58000 (some ⟨50200, 3600, 0⟩))

theorem test_late_switch_skips_three :
    late.shc.s2.schedule = some ⟨50200, 3600, 0, 3, 0, false, none, false⟩ ∧
    ⟨58000, .schedule .s2 .skipped (some .lateSwitch) 3 50200⟩ ∈ late.cnl.notices := by decide

/-- 11.4: the confirmation of entry 1 is held back for a trim of 3,000 and armed at 16,000. -/
def held : State :=
  after [.confirmReel 1 2 0 1 1] ((showing .loaded .none 4584).modAlc .p4 fun a => { a with trim := 3000 })
def armedNow : State := after [.setTrim 2 4 16000, .setTrimAccepted .p4] held

theorem test_short_trim_is_held :
    (held.shc.s2.entry 1).state = .confirmed ∧ held.shc.s2.trimHold = some 1 := by decide
theorem test_new_trim_arms :
    (armedNow.shc.s2.entry 1).state = .armed ∧ armedNow.shc.s2.trimHold = none ∧
    armedNow.shc.s2.strikeFrame = some 27144 ∧ armedNow.trm.p4.runLength = some 30000 := by decide

/-- 11.4: the changeover at n_in 185, slip −7. -/
def beforeChangeover : State :=
  lampAs .p4 .stable (running .p4 .atSpeed 185 30000 ((showing .armed .motorFired 28582).modShc .s2 fun c =>
    { c with motorB := true }))
def changed : State := after [.cueFiredEvent .p3 .changeover .sensed 28582] beforeChangeover

theorem test_changeover_passes_the_picture :
    changed.shc.s2.douserA = false ∧ changed.shc.s2.douserB = true ∧ changed.shc.s2.soundOut = some .b ∧
    (changed.shc.s2.entry 0).state = .runningOut ∧ (changed.shc.s2.entry 1).state = .onScreen := by decide
theorem test_changeover_slip :
    ⟨64000, .changeover .s2 true .sensed none 0 101 28582 (some 1) 102 185 (-7)⟩ ∈ changed.cnl.notices := by decide

/-- 11.6: an incoming with its shutter down is stood down. -/
theorem test_missed_changeover :
    let t := after [.dropShutter 1 4, .cueFiredEvent .p3 .changeover .sensed 28581] beforeChangeover
    (t.shc.s2.entry 1).state = .loaded ∧ t.shc.s2.douserA = true ∧ Instr.motorStop .p4 ∈ t.events := by decide

/-- 11.7: a film break of the picture projector, the events taken in the order they are raised. -/
def broken : State :=
  after [.loopOpeningEdge .p3, .filmBreak .p3 14400, .motorStop .p3, .breakOrStallEvent .p3 .filmBreak 14400]
    (showing .loaded .none 14400)

theorem test_film_break_halts :
    broken.shc.s2.state = .halted ∧
    broken.shc.s2.halt = some ⟨.filmBreak, some .p3, .picture, 0, 14400, 64000, []⟩ := by decide
theorem test_film_break_shuts :
    broken.bsu.shutters.p3 = ⟨.dropped, .break_, false, some true, three true⟩ ∧ broken.bsu.vetoes.p3 = some .filmBreak ∧
    broken.trm.p3.state = .stopped := by decide

/-- 5.7, Worked feed samples: steps, accumulator and C after each. -/
def lamp3 (acc c : Nat) : State :=
  (lampAs .p3 .stable State.reset).modAlc .p3 fun a => { a with acc := acc, trim := 12000, consumed := c }
def fed (acc c vm im : Nat) : Nat × Nat × Nat :=
  let a := (after [.arcSample .p3 vm im] (lamp3 acc c)).alc.p3
  (a.steps, a.acc, a.consumed)

theorem test_feed_samples :
    fed 2000 4492 372 70 = (8, 280, 4500) ∧ fed 280 4500 361 70 = (3, 1120, 4503) ∧
    fed 1120 4503 352 70 = (0, 1960, 4503) ∧ fed 1960 4503 348 71 = (1, 252, 4504) ∧
    fed 252 4504 330 70 = (0, 1092, 4504) ∧ fed 1092 4504 338 130 = (0, 92, 4504) := by decide
theorem test_trim_out :
    let a := (after [.arcSample .p3 372 70] (lamp3 2000 11995)).alc.p3
    a.state = .dark ∧ a.lastCause = .trimOut ∧ a.consumed = 12000 := by decide

/-- 6.6, cases 1 to 4: the remaining trims that just pass and just fail. -/
def trimmed (steps : Nat) : State :=
  (booth (screen .onScreen .confirmed)).modAlc .p4 fun a => { a with trim := 12000, consumed := 12000 - steps }
def tested (steps n : Nat) : Bool :=
  let r : Reel := ⟨.b, 28776, 28000, 28776, 5, []⟩
  (trimmed steps).trimPasses .s2 1 r (.changeover 30000 n)

theorem test_trim_just_passes : tested 4525 6000 = true ∧ tested 4524 6000 = false := by decide

/-- 7.5, Worked fade: the first ticks, and the last. -/
def fading : State :=
  let c : ChannelRec := { ChannelRec.reset with fade := ⟨65280, 65280, 16384, 20, 10⟩ }
  State.reset.modHlc .s2 fun h => { h with house := c }
def fineAfter (n : Nat) : Nat := (after (List.replicate n (.fadeTick .s2)) fading).hlc.s2.house.fade.fine

theorem test_fade_steps :
    fineAfter 1 = 62836 ∧ fineAfter 4 = 55504 ∧ fineAfter 5 = 53059 ∧ fineAfter 20 = 16384 := by decide

/-- 7.8, Firing delays at two mains frequencies. -/
def delayAt (l p : Nat) : Option Nat :=
  let c : ChannelRec := { ChannelRec.reset with fade := ⟨l * 256, l * 256, l * 256, 0, 0⟩ }
  (after [.halfCycleEvent .s1 p] (State.reset.modHlc .s1 fun h => { h with house := c })).hlc.s1.house.delay

theorem test_firing_delays :
    [0, 1, 64, 128, 192, 255].map (delayAt · 10000) =
      [none, some 9960, some 9335, some 7460, some 4296, some 0] ∧
    [1, 64, 128, 192].map (delayAt · 8333) = [some 8300, some 7779, some 6217, some 3580] := by decide

/-- 7.7, Locking through a disturbance: pulses 13 and 14. -/
def locking : State :=
  State.reset.modMpt fun m => { m with
    previous := some 70000, run := [10000, 10004, 9996, 10012, 9988, 10006, 9994], silenceTimer := true }

theorem test_mains_locks :
    (after [.zeroCrossPulse 80000] locking).mpt.locked = true ∧
    (after [.zeroCrossPulse 80000] locking).mpt.halfPeriod = 10000 ∧
    (after [.zeroCrossPulse 80000, .zeroCrossPulse 90016] locking).mpt.halfPeriod = 10002 := by decide

/-- 4.9, Example: a changeover window in SENSED mode. -/
def windowed : State :=
  (running .p3 .atSpeed 29650 30000 State.reset).modTrm .p3 fun t => { t with
    window := some ⟨.motor, 29712, 24, .sensed⟩ }
def markAt (n : Nat) : State := after [.markEdge .p3] (windowed.modTrm .p3 fun t => { t with count := n })

theorem test_scratch_is_stray : (markAt 29650).trm.p3.stray = 1 ∧ (markAt 29650).events = [] := by decide
theorem test_mark_fires :
    (markAt 29715).trm.p3.window = none ∧ (markAt 29715).events = [.cueFiredEvent .p3 .motor .sensed 29715] := by decide

/-- 9.3, Checking a frame: READ CLOCK, kind 0x12, TAG 5. -/
theorem test_read_clock_frame :
    (after [.byteReceived 0xC7 true, .byteReceived 0x02 true, .byteReceived 0x12 true, .byteReceived 0x05 true,
      .byteReceived 0xE7 true] State.reset).cnl.inbound = [⟨0x12, 5, []⟩] := by decide

/-- 9.6, Notices under QUIET and across a line break: the last rows. -/
def breaking : Cnl :=
  { State.reset.cnl with
    notices := List.replicate 31 ⟨1, .performanceEnd .s1 1⟩ ++ [⟨2, .noticesLost 3⟩], lost := 1,
    tx := some ⟨false, 0⟩ }

theorem test_break_counts_the_notice :
    let c := (after [.lineBreak] { State.reset with cnl := breaking }).cnl
    c.notices.length = 32 ∧ c.lost = 0 ∧ c.tx = none ∧ c.notices.getLast? = some ⟨0, .noticesLost 2⟩ := by decide

/-- 11.8: the fire halts an INTERVAL; RESUME and CLEAR FIRE are refused while the input is ASSERTED. -/
def interval : State :=
  booth { screen .done .runningOut with state := .interval, current := 2, countdown := 400 }

theorem test_fire_shuts_every_port :
    (onFire interval).bsu.shutters.p3.state = .dropped ∧ (onFire interval).bsu.vetoes.p3 = some .fire ∧
    (onFire interval).hlc.s2.winner = some .fire := by decide
theorem test_fire_locks :
    (after [.resume 1 2, .clearFire 2] (onFire interval)).cnl.replies =
      [⟨0xB1, 1, .fireLock, none, []⟩, ⟨0xCB, 2, .notReady .inputAsserted, none, []⟩] := by decide
theorem test_fire_halts :
    (after [.fireEvent .s2] (onFire interval)).shc.s2.halt = some ⟨.fire, none, .after, 2, 0, 64000, []⟩ := by decide

/-- R187, R174: power-on reads the straps. -/
theorem test_power_on_rate : (after [.powerOn ⟨true, true⟩] State.reset).cnl.rate = .baud9600 := by decide

/-! ## Witnesses: chapter 9 -/

def line (c : Cnl) : State := { State.reset with cnl := c }
def inFrame (l : PartialFrame) : Cnl := { State.reset.cnl with rx := .inFrame, partialFrame := some l, gapTimer := true }
def atSpace (s : State) : State := { s with pins := { s.pins with lineMark := false } }
def replyOf (kind : Byte) : Reply := ⟨kind, 1, .done, none, []⟩
def noticeOf (n : Nat) : Notice := ⟨n, .performanceEnd .s1 1⟩

theorem witness_StepRunsFrontOfQueue :
    (∃ c rest, ({ State.reset with pending := [.takeFrame] } : State).pending = c :: rest) ∧
    State.reset.pending = [] ∧ State.reset.events = [] ∧
    (∃ e rest, ({ State.reset with events := [.fireEvent .s1] } : State).events = e :: rest) :=
  ⟨⟨_, _, rfl⟩, rfl, rfl, _, _, rfl⟩

/-- LEN at both ends of its range, outside it, MARK inside a frame; the last byte with its sum 0 and not 0, the
inbound queue with room and full, the reply queue with room and full. -/
theorem witness_ReceiverFollowsItsTable :
    (line State.reset.cnl).cnl.rx = .hunt ∧
    (inFrame ⟨none, []⟩).partialFrame = some ⟨none, []⟩ ∧ (2 ≤ (2 : Byte).toNat ∧ (58 : Byte).toNat ≤ 58) ∧
    ¬(2 ≤ (1 : Byte).toNat) ∧ ¬((59 : Byte).toNat ≤ 58) ∧ (0xC7 : Byte) ≠ 59 ∧
    ([0x12] : List Byte).length < (2 : Byte).toNat ∧ ([0x12, 5] : List Byte).length = (2 : Byte).toNat ∧
    ((2 : Byte).toNat + (([0x12, 5] ++ [0xE7] : List Byte).map (·.toNat)).sum) % 256 = 0 ∧
    ((2 : Byte).toNat + (([0x12, 5] ++ [0xE8] : List Byte).map (·.toNat)).sum) % 256 ≠ 0 ∧
    (after [.byteReceived 0xE7 true] (line (inFrame ⟨some 2, [0x12, 5]⟩))).cnl.inbound = [⟨0x12, 5, []⟩] ∧
    (after [.byteReceived 0xE8 true] (line (inFrame ⟨some 2, [0x12, 5]⟩))).cnl.replies =
      [⟨0x8F, 0, .checkError, none, []⟩] ∧
    (after [.byteReceived 0xE7 true] (line { inFrame ⟨some 2, [0x12, 5]⟩ with
      inbound := List.replicate 4 ⟨0x10, 0, []⟩, reserved := 3 })).cnl.replies = [⟨0x8F, 5, .queueFull, none, []⟩] ∧
    (after [.byteReceived 0xE7 true] (line { inFrame ⟨some 2, [0x12, 5]⟩ with
      inbound := List.replicate 4 ⟨0x10, 0, []⟩, reserved := 4 })).cnl.replies = [] := by decide

theorem witness_FrameSentIsFrameReceived :
    (List.replicate 56 (0 : Byte)).length ≤ 56 ∧ State.reset.cnl.rx = .hunt ∧
    ({ State.reset.cnl with inbound := List.replicate 3 ⟨0x10, 0, []⟩ } : Cnl).inbound.length < 4 := by decide

theorem witness_RequestFramesDecodeToTheirRequests :
    wellFormed (.writeEntry 1 2 23 1 (areaOf (.reel reelA))) = true ∧
    (encodeRequest (.writeEntry 1 2 23 1 (areaOf (.reel reelA)))).isSome = true := by decide

/-- A place free and none; a request, an unknown KIND, a body too long; a reset pending. -/
theorem witness_TakenFrameGoesToItsOwner :
    (line { State.reset.cnl with inbound := [⟨0x30, 1, [2]⟩], reserved := 3 }).cnl.inbound = [⟨0x30, 1, [2]⟩] ∧
    0 + 3 < 4 ∧ decodeRequest 0x30 1 [2] = .request (.start 1 2) ∧ decodeRequest 0x15 1 [] = .unknownKind ∧
    decodeRequest 0x30 1 [2, 2] = .badLength ∧ 4 ≤ 0 + 4 ∧
    (after [.takeFrame] (line { State.reset.cnl with inbound := [⟨0x30, 1, [2]⟩], reserved := 4 })).cnl.inbound =
      [⟨0x30, 1, [2]⟩] := by decide

/-- R174: the MARK byte 0xC7 = 1100 0111 on the line, least significant bit first, and read back; a character whose stop
bit is at space; no character without its start bit. -/
theorem test_characters_of_the_line :
    character 0xC7 = [false, true, true, true, false, false, false, true, true, true] ∧
    readCharacter [false, true, true, true, false, false, false, true, true, false] = some (0xC7, false) ∧
    readCharacter [true, true, true, true, false, false, false, true, true, true] = none := by decide

theorem witness_TransmitterSendsRepliesFirst :
    (let c : Cnl := { State.reset.cnl with replies := [replyOf 0x90] }
     c.tx = none ∧ c.rx ≠ .brk ∧ c.replies ≠ []) ∧
    (let c : Cnl := State.reset.cnl
     c.tx = none ∧ c.rx ≠ .brk ∧ c.replies = [] ∧ c.notices ≠ [] ∧ c.quiet = false) ∧
    (let c : Cnl := { State.reset.cnl with tx := some ⟨true, 0⟩, replies := [replyOf 0x93], resetPending := true }
     c.tx = some ⟨true, 0⟩ ∧ c.replies = [replyOf 0x93] ∧ c.resetPending = true ∧ (replyOf 0x93).kind = 0x93 ∧
      (replyOf 0x93).result = .done) ∧
    (let c : Cnl := { State.reset.cnl with tx := some ⟨false, 0⟩, lost := 255 }
     c.tx = some ⟨false, 0⟩ ∧ c.notices = [⟨0, .restart .power .baud1200⟩] ∧ 0 < c.lost) ∧
    (let c : Cnl := { State.reset.cnl with tx := some ⟨false, 1⟩ }
     (c.frame ⟨false, 1⟩)[1]? = some 8 ∧ (List.range 10).map c.outputLevel = character 8 ∧
     State.reset.cnl.tx = none ∧ State.reset.cnl.outputLevel 0 = true) ∧
    State.reset.pins.lineMark = true ∧ (atSpace State.reset).pins.lineMark = false ∧
    (after [.frameStart] State.reset).cnl.tx = some ⟨false, 0⟩ ∧ (after [.frameStart] (atSpace State.reset)).cnl.tx = none ∧
    (let s := line { State.reset.cnl with tx := some ⟨true, 4⟩, replies := [replyOf 0x90], resetPending := true }
     (after [.frameSent] s).cnl.replies = [] ∧ (after [.frameSent] s).cnl.resetPending = true) := by decide

/-- R188, R189: the reset is made in the event that sends the SUM byte, and reads the straps as they then stand. -/
theorem test_sent_done_makes_the_reset :
    let s := line { State.reset.cnl with tx := some ⟨true, 4⟩, replies := [replyOf 0x93], resetPending := true }
    (after [.frameSent] (s.strapped ⟨true, true⟩)).cnl = Cnl.reset ⟨true, true⟩ ⟨0, .restart .boothReset .baud9600⟩ := by
  decide

/-- R178, R188: the reset that an abandoned DONE reply makes stands before the receiver's BREAK. -/
theorem test_abandoned_done_makes_the_reset :
    let s := line { State.reset.cnl with tx := some ⟨true, 4⟩, replies := [replyOf 0x93], resetPending := true }
    (after [.lineBreak] s).cnl = { Cnl.reset ⟨false, false⟩ ⟨0, .restart .boothReset .baud1200⟩ with rx := .brk } := by
  decide

/-- A reply, a notice and a NOTICES LOST in transmission, the lost count at its top; the line at BREAK. -/
theorem witness_LineBreakResetsTheLink :
    (let c : Cnl := { State.reset.cnl with tx := some ⟨true, 0⟩, replies := [replyOf 0x90], lost := 0 }
     c.rx ≠ .brk ∧ c.resetPending = false ∧ c.tx = some ⟨true, 0⟩ ∧ c.replies = [replyOf 0x90]) ∧
    (let c : Cnl := { State.reset.cnl with tx := some ⟨false, 0⟩, notices := [⟨1, .noticesLost 255⟩], lost := 255 }
     c.rx ≠ .brk ∧ c.tx = some ⟨false, 0⟩ ∧ c.notices = [⟨1, .noticesLost 255⟩]) ∧
    (let c : Cnl := { State.reset.cnl with tx := some ⟨false, 0⟩ }
     c.rx ≠ .brk ∧ c.notices = [⟨0, .restart .power .baud1200⟩]) ∧
    (let c : Cnl := { State.reset.cnl with tx := some ⟨true, 0⟩, replies := [replyOf 0x93], resetPending := true }
     c.rx ≠ .brk ∧ c.tx = some ⟨true, 0⟩ ∧ c.replies = [replyOf 0x93] ∧ (replyOf 0x93).kind = 0x93 ∧
      (replyOf 0x93).result = .done) ∧
    (after [.lineBreak] State.reset).cnl.rx = .brk ∧ (inFrame ⟨none, []⟩).gapTimer = true := by decide

/-- 31 notices, 32 notices; a place reserved, none reserved with one free, and none. -/
theorem witness_QueuesStayWithinTheirPlaces :
    State.reset.cnl.Bounded ∧ (∃ t, step State.reset = .next t) ∧
    (List.replicate 31 (noticeOf 1)).length < 32 ∧ 32 ≤ (List.replicate 32 (noticeOf 1)).length ∧
    (List.replicate 3 (replyOf 0x90)).length < 4 ∧ 4 ≤ (List.replicate 4 (replyOf 0x90)).length :=
  ⟨by unfold Cnl.Bounded; decide, ⟨_, rfl⟩, by decide, by decide, by decide, by decide⟩

theorem witness_LinkAndClockRequests :
    (after [.quiet 1 1] State.reset).cnl.quiet = true ∧
    (after [.quiet 1 2] State.reset).cnl.replies = [⟨0x94, 1, .badField, none, []⟩] ∧
    (after [.setClock 1 4294967295] State.reset).bck.time = 4294967295 ∧
    (after [.secondTimerExpiry] { State.reset with bck := ⟨4294967295, true, true⟩ }).bck.time = 4294967295 := by decide

theorem witness_BoothResetKeepsTheClock :
    (State.reset.shc.get .s1).state = .idle ∧ (State.reset.shc.get .s2).state = .idle ∧
    (State.reset.shc.get .s3).state = .idle ∧ (State.reset.shc.get .s4).state = .idle ∧
    ((inState .gap .loaded .loaded).shc.get .s2).state ≠ .idle ∧ (2 : Byte) ≠ 0 ∧ (2 : Byte) ≠ 1 := by decide

/-- Screens 1 and 4, 0 and 5; projectors 1 and 8, 0 and 9; the last part of each read and the one after it. -/
theorem witness_RepliesAndReadsFollowTheirLayouts :
    (1 : Byte).toNat = Screen.s1.num ∧ (4 : Byte).toNat = Screen.s4.num ∧ ¬(1 ≤ (0 : Byte).toNat) ∧
    ¬((5 : Byte).toNat ≤ 4) ∧ (1 : Byte).toNat = Proj.p1.num ∧ (8 : Byte).toNat = Proj.p8.num ∧
    ¬((9 : Byte).toNat ≤ 8) ∧ (4 : Byte).toNat ≤ 4 ∧ 4 < (5 : Byte).toNat ∧ (2 : Byte).toNat ≤ 2 ∧
    2 < (3 : Byte).toNat ∧ (1 : Byte).toNat ≤ 1 ∧ 1 < (2 : Byte).toNat ∧
    (State.reset.hlc.get .s4).presets[0]? = some Preset.reset := by decide

/-! ## Witnesses: chapter 1 -/

/-- Index 23 and 24; a switch pending; an area that is accepted, one that is not; a CONFIRMED reel written over. -/
theorem witness_WriteEntryAndClearStaged :
    (2 : Byte).toNat = Screen.s2.num ∧ (23 : Byte).toNat < 24 ∧ 24 ≤ (24 : Byte).toNat ∧
    ((staged 61000 (some ⟨64400, 7200, 2⟩)).shc.get .s2).switch.isSome = true ∧
    ((staged 61000 none).shc.get .s2).switch = none ∧ kindOfArea 5 (areaOf .empty) = none ∧
    kindOfArea 1 (areaOf (.reel reelA)) = some (.reel reelA) ∧
    (entryAt (((staged 61000 none).shc.get .s2).bank .b1) 0).kind = .reel reelA ∧
    (entryAt (((staged 61000 none).shc.get .s2).bank .b1) 0).state = .confirmed ∧
    (entryAt (((staged 61000 none).shc.get .s2).bank .b1) 1).state ≠ .confirmed := by decide

theorem witness_EntriesAreWrittenAndReadBack :
    (EntryKind.reel ⟨.b, 1000, 1, 2, 65535, [⟨0, 0⟩, ⟨1000, 7⟩]⟩).Ranged ∧ (EntryKind.interval 7200 7).Ranged ∧
    (EntryKind.link 23).Ranged ∧ kindOfArea 3 (areaOf (.link 23)) = some (.link 23) ∧
    (2 : Byte).toNat = Screen.s2.num ∧ (1 : Byte).toNat = BankId.b1.code ∧ (23 : Byte).toNat < 24 ∧
    2 ≤ (2 : Byte).toNat ∧ 24 ≤ (24 : Byte).toNat :=
  ⟨by simp only [EntryKind.Ranged]; decide, by simp only [EntryKind.Ranged]; decide,
    by simp only [EntryKind.Ranged]; decide, by decide⟩

def chain (l : List EntryKind) : List Entry := l.map fun k => ⟨k, .loaded, false⟩

theorem witness_LinksAreFollowedTwice :
    (entryAt links 0).kind = .reel reelA ∧ (entryAt links 4).kind = .finish ∧ (entryAt links 8).kind = .empty ∧
    (entryAt links 7).kind = .link 7 ∧ (entryAt links 2).kind = .link 5 ∧ 5 ≠ 2 ∧
    (entryAt links 5).kind = .link 6 ∧ 6 ≠ 5 ∧ (entryAt links 6).kind = .link 1 ∧ 1 ≠ 6 ∧
    (entryAt (chain [.link 1, .interval 7200 7]) 1).kind = .interval 7200 7 ∧
    (entryAt (chain [.link 1, .link 1]) 0).kind = .link 1 ∧ (entryAt (chain [.link 1, .link 1]) 1).kind = .link 1 :=
  by decide

/-- A bank that begins with these kinds. -/
def bankOfKinds (l : List EntryKind) : List Entry := chain l ++ List.replicate (24 - l.length) Entry.blank

/-- Walks that end at END, at a fault, at a REEL and at an INTERVAL already reached; a first entry that is no REEL. -/
theorem witness_walks :
    evening.length = 24 ∧ resolve evening 0 = .reel 0 reelA ∧ [0, 1, 2, 3, 4].Nodup ∧
    follow evening [0, 1, 2, 3, 4] (resolve evening 0) = some .finish ∧
    (let es := bankOfKinds [.reel reelA, .empty]
     es.length = 24 ∧ follow es [0] (resolve es 0) = some (.fault 1 .emptyEntry)) ∧
    (let es := bankOfKinds [.reel reelA, .link 0]
     es.length = 24 ∧ follow es [0] (resolve es 0) = some (.reel 0 reelA)) ∧
    (let es := bankOfKinds [.reel reelA, .interval 0 3, .link 1]
     es.length = 24 ∧ follow es [0, 1] (resolve es 0) = some (.interval 1 0 3)) ∧
    (let es := bankOfKinds [.interval 600 3]
     es.length = 24 ∧ resolve es 0 = .interval 0 600 3) := by decide

/-- The cycle at 86,400 and above it, equal to the total and one less; a base at the present, one second before it,
255 and 256 cycles before it, and one that passes the last booth time. -/
theorem witness_SwitchProgrammeChecksAndAdvances :
    (2 : Byte).toNat = Screen.s2.num ∧ 86400 < (86401 : Word).toNat ∧ (86400 : Word).toNat ≤ 86400 ∧
    State.reset.bck.isSet = false ∧ (staged 61000 none).bck.isSet = true ∧
    ((staged 61000 none).shc.get .s2).switch = none ∧
    ((staged 61000 (some ⟨64400, 7200, 2⟩)).shc.get .s2).switch.isSome = true ∧
    programmeWalk evening 24 = .total 5400 ∧ programmeWalk (chain [.reel reelA, .link 0]) 24 = .unbounded ∧
    programmeWalk (chain [.reel reelA, .empty]) 24 = .fault ∧
    (switchAt 61000 5400).shc.s2.switch = some ⟨61000, 5400, 2⟩ ∧
    (switchAt 60999 5400).shc.s2.switch = some ⟨66399, 5400, 2⟩ ∧
    (after [.switchProgramme 7 2 3 5400 2] (staged 1377003 none)).shc.s2.switch = some ⟨1377003, 5400, 2⟩ ∧
    (after [.switchProgramme 7 2 3 5400 2] (staged 1377004 none)).shc.s2.switch = none ∧
    (after [.switchProgramme 7 2 4294967000 5400 2] (staged 4294967295 none)).shc.s2.switch = none := by
  decide +kernel

theorem witness_CancelSwitchRemovesThePendingSwitch :
    (2 : Byte).toNat = Screen.s2.num ∧ ¬((0 : Byte).toNat = 1) ∧
    ((staged 61000 (some ⟨64400, 7200, 2⟩)).shc.get .s2).switch = some ⟨64400, 7200, 2⟩ ∧
    ((staged 61000 none).shc.get .s2).switch = none := by decide

theorem witness_ConfirmKeepsThreadingExclusive :
    (((showing .confirmed .none 0).shc.get .s2).threadedOn .a).length = 1 := by decide

theorem witness_ConfirmationsAreGivenAndWithdrawn :
    (2 : Byte).toNat = Screen.s2.num ∧ (0 : Byte).toNat = BankId.b0.code ∧ (1 : Byte).toNat < 24 ∧
    (let c := (inState .idle .done .loaded).shc.get .s2
     (entryAt (c.bank .b0) 1).kind = .reel reelB ∧ (entryAt (c.bank .b0) 1).state ≠ .confirmed ∧
     c.sideBusy .b = false ∧ (entryAt (c.bank .b0) 2).kind = .interval 600 3 ∧ c.state = .idle) ∧
    ((showing .loaded .none 0).shc.get .s2).sideBusy .a = true ∧
    (entryAt (((showing .confirmed .none 0).shc.get .s2).bank .b0) 1).state = .confirmed ∧
    (let s := showing .armed .none 0
     let c := s.shc.get .s2
     (entryAt (c.bank .b0) 1).state = .armed ∧ (s.trm.get .p4).motor = false ∧ c.state ≠ .preparing ∧
     (entryAt ((after [.withdrawConfirmation 1 2 0 1] s).shc.s2.bank .b0) 1).state = .loaded ∧
     (entryAt ((after [.withdrawConfirmation 1 2 0 1] (running .p4 .runUp 10 0 s)).shc.s2.bank .b0) 1).state =
       .armed) ∧
    ((inState .preparing .armed .loaded).shc.get .s2).state = .preparing ∧
    (entryAt (((showing .loaded .none 0).shc.get .s2).bank .b0) 0).state = .onScreen := by decide

/-- The countdown at 0, 1, and at one more than the strike lead. -/
def resting (n : Nat) (a : EntryState) : State :=
  booth { screen a .done with
    bank0 := [⟨.interval 600 3, .active, false⟩, ⟨.reel reelA, a, false⟩, ⟨.finish, .loaded, false⟩] ++
      List.replicate 21 Entry.blank
    state := .interval, current := 0, countdown := n }

theorem witness_BoothSecondRunsTheInterval :
    (let c := (resting 61 .confirmed).shc.get .s2
     c.switch = none ∧ c.schedule = none ∧ c.state = .interval ∧ 1 < c.countdown ∧ c.preStrike = false ∧
     c.next c.current = .reel 1 reelA ∧ (c.entry 1).state = .confirmed ∧
     ((resting 61 .confirmed).alc.get .p3).state = .dark ∧
     c.countdown - 1 ≤ ((resting 61 .confirmed).alc.get .p3).setup.lead ∧
     ((resting 61 .confirmed).alc.get .p3).remaining ≠ 0 ∧ (resting 61 .confirmed).bsu.proven = true ∧
     (resting 61 .confirmed).bsu.fire = none) ∧
    ((resting 62 .confirmed).shc.get .s2).countdown - 1 = 61 ∧
    (let s := lampAs .p3 .stable (resting 1 .armed)
     let c := s.shc.get .s2
     c.countdown = 1 ∧ c.next c.current = .reel 1 reelA ∧ 1 ≠ c.current ∧ (c.entry 1).state = .armed ∧
     (s.alc.get .p3).state = .stable) ∧
    (after [.boothSecondEvent .s2 64001] (lampAs .p3 .stable (resting 1 .armed))).shc.s2.state = .preparing ∧
    ((resting 0 .armed).shc.get .s2).countdown = 0 := by decide

/-- Slot 0 at 64,000 with a start grace of 300. -/
def slotted (x : ScreenState) (a : EntryState) (wait : Option Nat) (k : Nat) : State :=
  lampAs .p3 .stable (booth { screen a .loaded with
    state := x, schedule := some ⟨64000, 7200, 2, k, 3, false, wait, false⟩ })

theorem witness_SlotsAreTakenOrMissed :
    (let c := (slotted .idle .confirmed none 0).shc.get .s2
     c.switch = none ∧ c.state ≠ .interval ∧ c.schedule = some ⟨64000, 7200, 2, 0, 3, false, none, false⟩ ∧
     c.first = .reel 0 reelA ∧ (c.entry 0).state = .confirmed) ∧
    (⟨64000, 7200, 2, 0, 3, false, none, false⟩ : Schedule).Left ∧
    (slotted .idle .confirmed none 0).trimPasses .s2 0 reelA .coldStart = true ∧
    ((slotted .idle .confirmed none 0).trm.get .p3).state = .stopped ∧
    (let t := after [.boothSecondEvent .s2 64000] (slotted .idle .confirmed none 0)
     t.shc.s2.state = .preparing ∧ t.shc.s2.schedule = some ⟨64000, 7200, 2, 1, 0, false, none, false⟩) ∧
    ((after [.boothSecondEvent .s2 64299] (slotted .idle .loaded none 0)).shc.s2.schedule =
      some ⟨64000, 7200, 2, 1, 3, false, some 64000, false⟩) ∧
    ((after [.boothSecondEvent .s2 64300] (slotted .idle .loaded none 0)).shc.s2.schedule =
      some ⟨64000, 7200, 2, 1, 4, true, none, false⟩) ∧
    ((after [.boothSecondEvent .s2 64000] (slotted .gap .loaded none 0)).shc.s2.schedule =
      some ⟨64000, 7200, 2, 1, 4, true, none, false⟩) ∧
    ¬(⟨64000, 7200, 2, 2, 3, false, some 71200, false⟩ : Schedule).Left ∧
    ((after [.boothSecondEvent .s2 71499] (slotted .idle .loaded (some 71200) 2)).shc.s2.schedule =
      some ⟨64000, 7200, 2, 2, 3, false, some 71200, false⟩) ∧
    ((after [.boothSecondEvent .s2 71500] (slotted .idle .loaded (some 71200) 2)).shc.s2.schedule = none) := by
  simp only [Schedule.Left]
  decide

/-- Slot 1, at 71,200, under the start wait of slot 0, with two slots left. -/
def waiting (x : ScreenState) (a : EntryState) (miss : Nat) : State :=
  lampAs .p3 .stable (booth { screen a .loaded with
    state := x, schedule := some ⟨64000, 7200, 3, 1, miss, false, some 64000, false⟩ })
def waited (now : Nat) (s : State) : Option Schedule := (after [.boothSecondEvent .s2 now] s).shc.s2.schedule

/-- The wait on a busy screen, taken, kept and missed, below the limit and at it; the slot due under it: missed on a
busy screen, missed behind the wait's start, and, where nothing can start, waiting in its turn, missed, or left by the
suspension. -/
theorem witness_slots_under_a_wait :
    (⟨64000, 7200, 3, 1, 2, false, some 64000, false⟩ : Schedule).Left ∧
    waited 71199 (waiting .gap .loaded 2) = some ⟨64000, 7200, 3, 1, 2, false, none, true⟩ ∧
    waited 64299 (waiting .idle .confirmed 2) = some ⟨64000, 7200, 3, 1, 0, false, none, false⟩ ∧
    waited 64299 (waiting .idle .loaded 2) = some ⟨64000, 7200, 3, 1, 2, false, some 64000, false⟩ ∧
    waited 64300 (waiting .idle .loaded 2) = some ⟨64000, 7200, 3, 1, 3, false, none, false⟩ ∧
    waited 64300 (waiting .idle .loaded 3) = some ⟨64000, 7200, 3, 1, 4, true, none, false⟩ ∧
    waited 71200 (waiting .gap .loaded 2) = some ⟨64000, 7200, 3, 2, 3, false, none, false⟩ ∧
    waited 71200 (waiting .idle .confirmed 2) = some ⟨64000, 7200, 3, 2, 1, false, none, false⟩ ∧
    waited 71499 (waiting .idle .loaded 2) = some ⟨64000, 7200, 3, 2, 3, false, some 71200, false⟩ ∧
    waited 71500 (waiting .idle .loaded 1) = some ⟨64000, 7200, 3, 2, 3, false, none, false⟩ ∧
    waited 71500 (waiting .idle .loaded 3) = some ⟨64000, 7200, 3, 1, 4, true, none, false⟩ ∧
    (waiting .idle .confirmed 2).trimPasses .s2 0 reelA .coldStart = true := by
  simp only [Schedule.Left]
  decide

/-- A screen with chapter 11's bank staged and a switch pending. -/
def pendingOn (t0 np : Nat) (s : State) : State :=
  s.modShc .s2 fun c => { c with bank1 := evening, switch := some ⟨t0, 3600, np⟩ }

/-- Before, at and after the lead of 60 s; a switch on time, and late with slots left and with none; the switch taken
at an ABORT and at a performance end, and kept there one second too early. -/
theorem witness_PendingSwitchTakesEffect :
    (let c := (staged 64340 (some ⟨64400, 7200, 2⟩)).shc.get .s2
     c.switch = some ⟨64400, 7200, 2⟩ ∧ resolve (c.bank c.active.other) 0 = .reel 0 reelA ∧ c.state = .idle ∧
     64400 - ((staged 64340 none).alc.get .p3).setup.lead ≤ 64340 ∧ 64339 < 64400 - 60 ∧ 64399 < 64400 ∧
     c.schedule = none) ∧
    (⟨50200, 3600, 0, 2, 0, false, none, false⟩ : Schedule).Left ∧ 50200 + 2 * 3600 + 300 < 58000 ∧
    58000 ≤ 50200 + 3 * 3600 + 300 ∧ ¬(⟨50200, 3600, 2, 2, 0, false, none, false⟩ : Schedule).Left ∧
    (after [.boothSecondEvent .s2 58000] (staged 58000 (some ⟨50200, 3600, 2⟩))).shc.s2.schedule = none ∧
    (let s := pendingOn 64060 2 (showing .loaded .none 5000)
     (2 : Byte).toNat = Screen.s2.num ∧ (s.shc.get .s2).state ≠ .idle ∧
     (after [.abort 1 2] s).shc.s2.active = .b1 ∧ (after [.abort 1 2] s).shc.s2.switch = none) ∧
    (after [.abort 1 2] (pendingOn 64061 2 (showing .loaded .none 5000))).shc.s2.switch = some ⟨64061, 3600, 2⟩ ∧
    (let s := pendingOn 64060 2 (inState .ending .runningOut .done)
     Screen.s2.proj .a = .p3 ∧ (s.shc.get .s2).state = .ending ∧
     (s.shc.get .s2).holdingOn .runningOut .a = some (0, reelA) ∧ (s.shc.get .s2).current = 0 ∧
     (after [.runoutReached .p3 29000] s).shc.s2.schedule = some ⟨64060, 3600, 2, 0, 0, false, none, false⟩) := by
  simp only [Schedule.Left]
  decide

/-- The last interval of a programme, its countdown at `n`, and a halt after its last reel. -/
def lastInterval (n : Nat) : State :=
  booth { Shc.reset with
    bank0 := [⟨.interval 600 3, .active, false⟩, ⟨.finish, .loaded, false⟩] ++ List.replicate 22 Entry.blank
    state := .interval, countdown := n }
def haltedLast : State :=
  booth { Shc.reset with
    bank0 := [⟨.reel reelA, .done, false⟩, ⟨.finish, .loaded, false⟩] ++ List.replicate 22 Entry.blank
    state := .halted, halt := some (haltAt .after) }

/-- R14, R37, R48: the switch at the ends that a RESUME and a booth second make; one second too early it waits. -/
theorem witness_switch_at_interval_end_and_resume :
    (let s := pendingOn 64060 2 (lastInterval 0)
     let c := s.shc.get .s2
     c.state = .interval ∧ c.countdown = 0 ∧ c.next c.current = .finish ∧ c.holding .runningOut = none ∧
     s.bsu.fire = none ∧ s.bsu.estop = none ∧ (after [.resume 1 2] s).shc.s2.active = .b1 ∧
     (after [.resume 1 2] s).shc.s2.schedule = some ⟨64060, 3600, 2, 0, 0, false, none, false⟩) ∧
    (let s := pendingOn 64060 2 haltedLast
     let c := s.shc.get .s2
     c.state = .halted ∧ c.halt = some (haltAt .after) ∧ (haltAt .after).point = .after ∧
     c.next (haltAt .after).index = .finish ∧ (after [.resume 1 2] s).shc.s2.active = .b1) ∧
    (after [.resume 1 2] (pendingOn 64061 2 haltedLast)).shc.s2.switch = some ⟨64061, 3600, 2⟩ ∧
    (let s := pendingOn 64060 2 (lastInterval 1)
     (s.shc.get .s2).countdown = 1 ∧ (s.shc.get .s2).next (s.shc.get .s2).current = .finish ∧
     (after [.boothSecondEvent .s2 64000] s).shc.s2.active = .b1 ∧
     (after [.boothSecondEvent .s2 64000] s).alc.p3.state = .striking) ∧
    (let t := after [.boothSecondEvent .s2 64000] (pendingOn 64061 2 (lastInterval 1))
     t.shc.s2.state = .idle ∧ t.shc.s2.active = .b0) := by decide

/-- Slots at 64,000 and 71,200; the clock set forward past both, past one, and to the first. -/
theorem witness_SetClockSkipsOvertakenSlots :
    (after [.clockSetEvent .s2 60000 64001] (slotted .idle .loaded none 0)).shc.s2.schedule =
      some ⟨64000, 7200, 2, 1, 3, false, none, false⟩ ∧
    (after [.clockSetEvent .s2 60000 71201] (slotted .idle .loaded none 0)).shc.s2.schedule = none ∧
    (after [.clockSetEvent .s2 60000 64000] (slotted .idle .loaded none 0)).shc.s2.schedule =
      some ⟨64000, 7200, 2, 0, 3, false, none, false⟩ ∧ 60000 < 64001 := by decide

/-! ## Witnesses: chapter 2 -/

/-- Fields at the ends of their ranges, and one beyond. -/
def fields (f l0 w : Nat) : ScreenFields :=
  ⟨BitVec.ofNat 8 f, BitVec.ofNat 16 l0, 1, BitVec.ofNat 8 w, 48, 1, 1800, 32, 7, 7, 7⟩

theorem witness_set_screen :
    (2 : Byte).toNat = Screen.s2.num ∧
    (after [.setScreen 1 2 (fields 25 384 96)] State.reset).cnl.replies = [⟨0xA0, 1, .done, some false, []⟩] ∧
    (after [.setScreen 1 2 (fields 25 385 97)] State.reset).cnl.replies = [⟨0xA0, 1, .done, some true, []⟩] ∧
    (after [.setScreen 1 2 (fields 26 384 96)] State.reset).cnl.replies = [⟨0xA0, 1, .badField, some false, []⟩] ∧
    (after [.setScreen 1 2 (fields 25 384 96)] (showing .loaded .none 0)).cnl.replies =
      [⟨0xA0, 1, .busy, some false, []⟩] := by decide

theorem witness_StartBringsUpTheFirstReel :
    (let s := lampAs .p3 .stable (inState .idle .confirmed .loaded)
     let c := s.shc.get .s2
     (2 : Byte).toNat = Screen.s2.num ∧ c.state = .idle ∧ s.bsu.fire = none ∧ s.bsu.estop = none ∧
     c.first = .reel 0 reelA ∧ (c.entry 0).state = .confirmed ∧ (s.trm.get .p3).state = .stopped ∧
     s.trimPasses .s2 0 reelA .coldStart = true ∧ (s.alc.get .p3).state = .stable) ∧
    (let s := inState .idle .confirmed .loaded
     (s.alc.get .p3).state = .dark ∧ (s.alc.get .p3).remaining ≠ 0 ∧ s.bsu.proven = true ∧
     s.trimPasses .s2 0 reelA .coldStart = true) ∧
    (after [.start 1 2] (inState .idle .confirmed .loaded)).shc.s2.state = .preparing ∧
    ((showing .loaded .none 0).shc.get .s2).state ≠ .idle ∧
    (onFire (inState .idle .confirmed .loaded)).bsu.fire.isSome = true ∧
    (after [.emergencyStopInputEdge true] (inState .idle .confirmed .loaded)).bsu.estop.isSome = true := by decide

theorem startBlocked_of_loaded (s : State) (i : Nat) (r : Reel) (hf : s.bsu.fire = none)
    (h : (s.shc.get .s2).first = .reel i r) (hs : ((s.shc.get .s2).entry i).state ≠ .confirmed) :
    s.StartBlocked .s2 .notThreaded :=
  .inr ⟨hf, .inl ⟨rfl, .inr ⟨i, r, h, .inl hs⟩⟩⟩

theorem witness_ShowRequestsAreRefusedInOrder :
    (inState .idle .loaded .loaded).StartBlocked .s2 .notThreaded ∧
    (let s := inState .idle .loaded .loaded
     (2 : Byte).toNat = Screen.s2.num ∧ (s.shc.get .s2).state = .idle ∧ s.bsu.fire = none ∧ s.bsu.estop = none) ∧
    (onFire (inState .gap .loaded .loaded)).bsu.fire.isSome = true ∧
    ((resting 1 .loaded).shc.get .s2).state = .interval ∧ 0 < ((resting 1 .loaded).shc.get .s2).countdown ∧
    ((resting 0 .loaded).shc.get .s2).countdown = 0 ∧
    (after [.emergencyStopInputEdge true] (resting 0 .loaded)).bsu.estop.isSome = true ∧
    ((showing .loaded .none 0).shc.get .s2).holding .armed = none ∧
    (let s := beforeChangeover
     (s.shc.get .s2).holding .onScreen = some (0, reelA) ∧ (s.shc.get .s2).holding .armed = some (1, reelB) ∧
     (s.trm.get .p4).state = .atSpeed ∧ (s.alc.get .p4).state = .stable ∧ (s.bsu.shutters.get .p4).state = .raised) ∧
    ((showing .armed .none 0).trm.get .p4).state ≠ .atSpeed ∧
    ((running .p4 .atSpeed 100 30000 (showing .armed .none 0)).alc.get .p4).state ≠ .stable ∧
    ((after [.dropShutter 1 4] beforeChangeover).bsu.shutters.get .p4).state ≠ .raised ∧
    ((after [.emergencyStopInputEdge true] beforeChangeover).bsu.vetoes.get .p4).isSome = true :=
  ⟨startBlocked_of_loaded _ 0 reelA (by decide) (by decide) (by decide), by decide⟩

theorem witness_ResumeBringsTheScreenBack :
    (let s := lampAs .p3 .stable (halted .picture .onScreen .loaded)
     let c := s.shc.get .s2
     c.state = .halted ∧ s.bsu.fire = none ∧ s.bsu.estop = none ∧ c.halt = some (haltAt .picture) ∧
     c.holding .onScreen = some (0, reelA) ∧ (s.bsu.shutters.get .p3).state = .raised ∧
     (s.trm.get .p3).loopClosed = some true ∧ (s.alc.get .p3).state.lit = true) ∧
    ((after [.dropShutter 1 3] (halted .picture .onScreen .loaded)).bsu.shutters.get .p3).state ≠ .raised ∧
    ((after [.loopOpeningEdge .p3] (halted .picture .onScreen .loaded)).trm.get .p3).loopClosed ≠ some true ∧
    (let s := lampAs .p3 .stable (halted .reel .armed .loaded)
     ((s.shc.get .s2).entry 0).kind = .reel reelA ∧ ((s.shc.get .s2).entry 0).state = .armed ∧
     (s.alc.get .p3).state = .stable ∧ (haltAt .reel).index = 0) ∧
    (let s := lampAs .p4 .stable (inState .gap .done .armed)
     (s.shc.get .s2).state = .gap ∧ (s.shc.get .s2).next (s.shc.get .s2).current = .reel 1 reelB ∧
     ((s.shc.get .s2).entry 1).state = .armed) ∧
    ((halted .after .done .armed).shc.get .s2).next (haltAt .after).index = .reel 1 reelB := by decide

/-- The replies to RESUME, with the state it leaves. -/
def resumed (s : State) : List Reply × ScreenState × LampState :=
  let t := after [.resume 1 2] s
  (t.cnl.replies, t.shc.s2.state, t.alc.p3.state)

/-- Trim 0, the exhaust not proven. -/
def noTrim (s : State) : State := s.modAlc .p3 fun a => { a with trim := 0 }
def unproven (s : State) : State := s.modBsu fun b => { b with proven := false }

/-- Screen 2 with these kinds, HALTED after its first entry, or in the INTERVAL of it. -/
def haltedIn (l : List EntryKind) : State :=
  booth { Shc.reset with bank0 := bankOfKinds l, state := .halted, halt := some (haltAt .after) }
def restingIn (l : List EntryKind) : State :=
  booth { Shc.reset with bank0 := (bankOfKinds (.interval 0 3 :: l)).modify 0 (·.become .active), state := .interval }

/-- A DARK and a FAILED lamp of a held picture, and the DARK lamp of an ARMED reel, struck and refused. -/
theorem witness_resume_strikes :
    (let s := halted .picture .onScreen .loaded
     (s.alc.get .p3).state = .dark ∧ (s.alc.get .p3).remaining ≠ 0 ∧ s.bsu.proven = true ∧
     resumed s = ([⟨0xB1, 1, .accepted, none, []⟩], .preparing, .striking) ∧
     resumed (lampAs .p3 .failed s) = ([⟨0xB1, 1, .accepted, none, []⟩], .preparing, .striking) ∧
     resumed (noTrim s) = ([⟨0xB1, 1, .notReady .noTrim, none, []⟩], .halted, .dark) ∧
     resumed (unproven s) = ([⟨0xB1, 1, .notReady .exhaust, none, []⟩], .halted, .dark)) ∧
    (let s := halted .reel .armed .loaded
     ((s.shc.get .s2).entry 0).state = .armed ∧ (s.alc.get .p3).state = .dark ∧
     resumed s = ([⟨0xB1, 1, .accepted, none, []⟩], .preparing, .striking) ∧
     resumed (noTrim s) = ([⟨0xB1, 1, .notReady .noTrim, none, []⟩], .halted, .dark) ∧
     resumed (unproven s) = ([⟨0xB1, 1, .notReady .exhaust, none, []⟩], .halted, .dark)) := by decide

/-- AFTER with an INTERVAL, END and a fault next; an INTERVAL of duration 0 with a reel, an INTERVAL, END with and
without a tail, and a fault next. -/
theorem witness_resume_goes_on :
    (let s := haltedIn [.reel reelA, .interval 600 3]
     (s.shc.get .s2).next 0 = .interval 1 600 3 ∧
     resumed s = ([⟨0xB1, 1, .done, none, []⟩], .interval, .dark)) ∧
    (let s := haltedIn [.reel reelA, .finish]
     (s.shc.get .s2).next 0 = .finish ∧ resumed s = ([⟨0xB1, 1, .done, none, []⟩], .idle, .dark)) ∧
    (let s := haltedIn [.reel reelA]
     (s.shc.get .s2).next 0 = .fault 1 .emptyEntry ∧
     resumed s = ([⟨0xB1, 1, .notReady .notThreaded, none, []⟩], .halted, .dark)) ∧
    (let s := lampAs .p3 .stable (resting 0 .armed)
     (s.shc.get .s2).next 0 = .reel 1 reelA ∧ ((s.shc.get .s2).entry 1).state = .armed ∧
     resumed s = ([⟨0xB1, 1, .accepted, none, []⟩], .preparing, .stable)) ∧
    resumed (restingIn [.interval 600 3]) = ([⟨0xB1, 1, .done, none, []⟩], .interval, .dark) ∧
    ((restingIn [.finish]).shc.get .s2).holding .runningOut = none ∧
    resumed (restingIn [.finish]) = ([⟨0xB1, 1, .done, none, []⟩], .idle, .dark) ∧
    (let s := (restingIn [.finish, .reel reelA]).modShc .s2 (·.enter 2 .runningOut)
     ((s.shc.get .s2).holding .runningOut).isSome = true ∧
     resumed s = ([⟨0xB1, 1, .done, none, []⟩], .ending, .dark)) ∧
    resumed (restingIn []) = ([⟨0xB1, 1, .done, none, []⟩], .gap, .dark) := by decide

theorem witness_AbortEndsThePerformance :
    ((showing .armed .none 5000).shc.get .s2).state ≠ .idle ∧ ((showing .armed .none 5000).shc.get .s2).switch = none ∧
    (after [.abort 1 2] (showing .armed .none 5000)).shc.s2.state = .idle ∧ State.reset.shc.s2.state = .idle := by
  decide

theorem witness_HaltFaultsStopTheScreen :
    (let c := (showing .loaded .none 5000).shc.get Proj.p3.screen
     c.state ≠ .idle ∧ c.state ≠ .halted ∧ c.motor Proj.p3.side = true ∧ c.motor Proj.p4.side = false ∧
     c.pictureSide = some Proj.p3.side) ∧
    (let s := showing .loaded .none 5000
     (s.trm.get .p3).motor = true ∧ (s.trm.get .p4).motor = false ∧
     (after [.shutterDropped .p4 .fault] (running .p4 .runUp 10 0 s)).shc.s2.state = .halted) ∧
    (after [.shutterDropped .p3 .console] (showing .loaded .none 5000)).shc.s2.state = .halted ∧
    (after [.shutterDropped .p4 .console] (showing .loaded .none 5000)).shc.s2.state = .showing ∧
    (State.reset.shc.get .s2).state = .idle ∧
    (let c := (halted .picture .onScreen .loaded).shc.get .s2
     c.state = .halted ∧ c.halt = some (haltAt .picture) ∧ HaltReason.fire ∉ (haltAt .picture).further ∧
     c.holding .onScreen = some (0, reelA)) ∧
    HaltReason.fire ∈ ({ haltAt .picture with further := [.fire] } : HaltRecord).further ∧
    (haltAt .after).point ≠ .picture ∧
    (let s := halted .picture .onScreen .loaded
     (s.shc.get .s2).holding .onScreen = some (0, reelA) ∧ reelA.side ≠ Side.b ∧
     (after [.shutterDropped .p4 .link, .shutterDropped .p3 .break_, .shutterDropped .p3 .fire] s).shc.s2 = s.shc.s2 ∧
     (after [.shutterDropped .p3 .link] s).shc.s2.halt = some { haltAt .picture with further := [.shutter] }) := by
  decide

/-- R42 item 4: a halt with the tails of both projectors running makes both DONE and puts both lamps out. -/
theorem test_halt_ends_both_tails :
    let s := lampAs .p4 .stable (lampAs .p3 .stable (booth { screen .runningOut .runningOut with
      state := .interval, current := 2, countdown := 400 }))
    let t := after [.fireEvent .s2] s
    (t.shc.s2.entry 0).state = .done ∧ (t.shc.s2.entry 1).state = .done ∧ t.alc.p3.state = .dark ∧
    t.alc.p4.state = .dark := by decide

/-- At L0, and one frame below it. -/
def rising (prep : PrepKind) (a : EntryState) (n : Nat) : State :=
  running .p3 .atSpeed n 28800 (lampAs .p3 .stable (booth { screen a .loaded with
    state := .preparing, prep := prep, motorA := true }))

theorem witness_PictureGoesOnAtSpeed :
    (let s := rising .start .armed 192
     let c := s.shc.get Proj.p3.screen
     c.state = .preparing ∧ (c.entry c.current).kind = .reel reelA ∧ reelA.side = Proj.p3.side ∧
     (s.trm.get .p3).state = .atSpeed ∧ c.setup.l0 ≤ (s.trm.get .p3).count ∧
     (s.bsu.shutters.get .p3).state = .raised ∧ s.bsu.vetoes.get .p3 = none ∧ c.prep ≠ .resume ∧
     c.holding .onScreen = none ∧ (s.trm.get .p3).count < reelA.fm) ∧
    (let s := rising .resume .onScreen 100
     let c := s.shc.get Proj.p3.screen
     c.prep = .resume ∧ c.holding .onScreen = some (c.current, reelA) ∧ c.progress = .none) ∧
    ((after [.dropShutter 1 3] (rising .start .armed 192)).bsu.shutters.get .p3).state ≠ .raised ∧
    (after [.emergencyStopInputEdge true] (rising .start .armed 192)).bsu.vetoes.get .p3 = some .estop ∧
    ((rising .start .armed 191).trm.get .p3).count < 192 ∧
    (after [.atSpeedEvent .p3 192] (rising .start .armed 192)).shc.s2.state = .showing ∧
    (after [.atSpeedEvent .p3 191] (rising .start .armed 191)).shc.s2.state = .preparing := by decide

theorem witness_PictureEndLeadsOn :
    (let c := (showing .loaded .none 28800).shc.get Proj.p3.screen
     c.holdingOn .onScreen Proj.p3.side = some (0, reelA) ∧ c.state = .showing ∧ c.next c.current = .reel 1 reelB) ∧
    (let c := (halted .picture .onScreen .loaded).shc.get Proj.p3.screen
     c.state = .halted ∧ c.holdingOn .onScreen Proj.p3.side = some (0, reelA) ∧
     c.holdingOn .armed Proj.p3.side = none) ∧
    (let c : Shc := { screen .onScreen .loaded with bank0 := chain [.reel reelA, .interval 600 3, .reel reelB, .finish] }
     c.next 0 = .interval 1 600 3 ∧ c.next 2 = .finish) ∧
    ((showing .loaded .none 0).shc.get .s2).holdingOn .onScreen Proj.p4.side = none ∧
    (after [.pictureEndReached .p3 28800] (showing .loaded .none 28800)).shc.s2.state = .gap := by decide

theorem witness_RunoutEndsTheTail :
    (let c := (inState .ending .runningOut .done).shc.get Proj.p3.screen
     c.holdingOn .runningOut Proj.p3.side = some (0, reelA) ∧ c.holdingOn .armed Proj.p3.side = none ∧
     c.state = .ending ∧ c.switch = none) ∧
    ((inState .showing .runningOut .onScreen).shc.get .s2).state ≠ .ending ∧
    ((inState .ending .runningOut .done).shc.get .s2).holdingOn .runningOut Proj.p4.side = none ∧
    (after [.runoutReached .p3 29000] (inState .ending .runningOut .done)).shc.s2.state = .idle := by decide

/-- R37: a tail older than the reel whose picture ended does not end the performance; from an interval the last tail
does. -/
def twoTails (current : Nat) : State :=
  booth { screen .runningOut .runningOut with state := .ending, current := current }

theorem witness_runouts_in_ending :
    ((twoTails 1).shc.get Proj.p3.screen).holdingOn .runningOut Proj.p3.side = some (0, reelA) ∧
    (((twoTails 1).shc.get .s2).entry 1).kind = .reel reelB ∧
    (after [.runoutReached .p3 29000] (twoTails 1)).shc.s2.state = .ending ∧
    (after [.runoutReached .p4 30200] (twoTails 1)).shc.s2.state = .idle ∧
    (((twoTails 2).shc.get .s2).entry 2).kind = .interval 600 3 ∧
    (after [.runoutReached .p3 29000] (twoTails 2)).shc.s2.state = .ending ∧
    (after [.runoutReached .p3 29000, .runoutReached .p4 30200] (twoTails 2)).shc.s2.state = .idle := by decide

theorem witness_LampChangesReachTheScreen :
    ((showing .loaded .none 5000).shc.get Proj.p3.screen).pictureSide = some Proj.p3.side ∧
    (let c := (rising .start .armed 0).shc.get Proj.p3.screen
     c.state = .preparing ∧ c.pictureSide = some Proj.p3.side ∧ c.pictureSide ≠ some Proj.p4.side) ∧
    (after [.lampStateChange .p3 .striking .stable .arcLost] (showing .loaded .none 5000)).shc.s2.state = .halted ∧
    (State.reset.shc.get .s2).state = .idle ∧
    (let c := (halted .picture .onScreen .loaded).shc.get .s2
     c.state = .halted ∧ c.halt = some (haltAt .picture) ∧ c.holding .onScreen = some (0, reelA) ∧
     reelA.side = Proj.p3.side ∧ reelA.side ≠ Proj.p4.side ∧ HaltReason.lamp ∉ (haltAt .picture).further) ∧
    (after [.lampStateChange .p3 .dark .stable .trimOut, .lampStateChange .p3 .striking .stable .arcLost,
      .lampStateChange .p4 .striking .stable .arcLost, .lampStateChange .p3 .dark .striking (.extinguished .console)]
      (halted .picture .onScreen .loaded)).shc.s2.halt = some { haltAt .picture with further := [.trimOut, .lamp] } := by
  decide

/-! ## Witnesses: chapter 3 -/

theorem witness_EvaluationArmsOrHoldsBack :
    (let s := showing .confirmed .none 27143
     let c := s.shc.get Proj.p4.screen
     c.state = .showing ∧ c.progress = .none ∧ c.holding .onScreen = some (0, reelA) ∧ reelA.fc = 28584 ∧
     (s.trm.get .p3).count = 27143 ∧ c.next 0 = .reel 1 reelB ∧ s.bsu.fire = none ∧
     (c.entry 1).state = .confirmed ∧ (s.trm.get .p4).state = .stopped ∧ (s.alc.get .p4).state = .dark ∧
     reelA.side ≠ reelB.side ∧ c.holding .armed = none ∧ c.next 1 = .interval 2 600 3 ∧
     s.trimPasses .s2 1 reelB (.changeover 28584 27143) = true ∧ 27143 < 28584 - 60 * 24 ∧ 28584 - 60 * 24 ≤ 27144) ∧
    (let s := (showing .confirmed .none 27143).modAlc .p4 fun a => { a with trim := 3000 }
     s.trimPasses .s2 1 reelB (.changeover 28584 27143) = false ∧ (s.shc.get .s2).setup.policy = .hold ∧
     (s.shc.get .s2).trimHold ≠ some 1) ∧
    held.shc.s2.trimHold = some 1 ∧ (State.reset.shc.get .s2).state = .idle ∧
    (let s := resting 600 .confirmed
     (s.shc.get .s2).state = .interval ∧ (s.shc.get .s2).next 0 = .reel 1 reelA ∧
     ((s.shc.get .s2).entry 1).state = .confirmed ∧ (s.shc.get .s2).next 1 = .finish ∧
     s.trimPasses .s2 1 reelA .coldStart = true) := by decide

/-- Screen 2 SHOWING with the next reel CONFIRMED and a cue fired, its trim too short, under the RUN policy. -/
def lateArming (x : CueProgress) (lamp : LampState) (trim : Nat) : State :=
  (((lampAs .p4 lamp (showing .confirmed x 28400)).modAlc .p4 fun a => { a with trim := trim }).modShc .s2 fun c =>
    { c with setup := { c.setup with policy := .run } })
def armedLate (s : State) : Entry × Bool × LampState :=
  let t := after [.setTrimAccepted .p4] s
  (t.shc.s2.entry 1, t.shc.s2.motorB, t.alc.p4.state)

theorem witness_late_arming :
    (let s := lateArming .motorFired .dark 16000
     (s.shc.get .s2).progress = .motorFired ∧ s.trimPasses .s2 1 reelB (.changeover 28584 28400) = true ∧
     (s.alc.get .p4).remaining ≠ 0 ∧ s.bsu.proven = true ∧
     armedLate s = (⟨.reel reelB, .armed, false⟩, true, .striking)) ∧
    armedLate (lateArming .motorFired .warming 16000) = (⟨.reel reelB, .armed, false⟩, true, .warming) ∧
    ((lateArming .motorFired .dark 3000).trimPasses .s2 1 reelB (.changeover 28584 28400) = false ∧
     ((lateArming .motorFired .dark 3000).shc.get .s2).setup.policy = .run ∧
     armedLate (lateArming .motorFired .dark 3000) = (⟨.reel reelB, .armed, true⟩, true, .striking)) ∧
    armedLate (lateArming .none .stable 3000) = (⟨.reel reelB, .armed, true⟩, false, .stable) ∧
    ((lateArming .changeoverFired .dark 16000).trimPasses .s2 1 reelB .coldStart = true ∧
     armedLate (lateArming .changeoverFired .dark 16000) = (⟨.reel reelB, .armed, false⟩, false, .dark)) := by decide

theorem witness_MotorCueStartsTheIncoming :
    (let s := showing .armed .none 28394
     let c := s.shc.get Proj.p3.screen
     c.state = .showing ∧ c.holding .onScreen = some (0, reelA) ∧ reelA.side = Proj.p3.side ∧
     c.holdingOn .onScreen Proj.p3.side = some (0, reelA) ∧ (s.trm.get .p3).count < reelA.fc ∧
     c.holding .armed = some (1, reelB) ∧ c.motor reelB.side = false ∧ (s.alc.get .p4).state = .dark ∧
     (s.alc.get .p4).remaining ≠ 0 ∧ s.bsu.proven = true ∧ s.bsu.fire = none) ∧
    ((showing .loaded .none 28583).shc.get .s2).holding .armed = none ∧
    (after [.cueFiredEvent .p3 .motor .sensed 28394] (showing .armed .none 28394)).shc.s2.progress = .motorFired ∧
    ((inState .gap .done .loaded).shc.get .s2).state ≠ .showing := by decide

/-- The ENTRY notices after the RESTART notice, the lamp and the motor command of the incoming, after a motor cue. -/
def cued (s : State) : List NoticeBody × LampState × Bool :=
  let t := after [.cueFiredEvent .p3 .motor .counted 28394] s
  (t.cnl.notices.tail.map (·.body), t.alc.p4.state, t.shc.s2.motorB)

/-- R59, R62: a FAILED lamp is struck; a strike refused for its trim, the exhaust and the fire is told. -/
theorem witness_motor_cue_strikes :
    (let s := lampAs .p4 .failed (showing .armed .none 28394)
     (s.alc.get .p4).state = .failed ∧ (s.alc.get .p4).remaining ≠ 0 ∧ (cued s).2 = (.striking, true)) ∧
    cued ((showing .armed .none 28394).modAlc .p4 fun a => { a with trim := 0 }) =
      ([.entry .s2 .b0 1 .p4 102 .strikeRefused false 0 (some .noTrim)], .dark, true) ∧
    cued ((showing .armed .none 28394).modBsu fun b => { b with proven := false }) =
      ([.entry .s2 .b0 1 .p4 102 .strikeRefused false 0 (some .exhaust)], .dark, true) ∧
    cued ((showing .armed .none 28394).modBsu fun b => { b with fire := some ⟨.alarm, false, false, true, 0, none⟩ }) =
      ([.entry .s2 .b0 1 .p4 102 .strikeRefused false 0 (some .fireLock)], .dark, true) := by decide

/-- R60: the motor cue one frame before the last frame of the changeover window, 28,584 + 24, and at it, the SHC then
taking the changeover cue: with no ARMED reel, with one not ready, and before an INTERVAL. -/
theorem witness_motor_cue_past_the_changeover_cue :
    (let s := showing .armed .none 28607
     (s.shc.get .s2).setup.cueMode = .sensed ∧ (s.shc.get .s2).setup.w = 24 ∧ (s.trm.get .p3).count < reelA.fc + 24 ∧
     (after [.cueFiredEvent .p3 .motor .counted 28607] s).shc.s2.progress = .motorFired) ∧
    (let s := showing .loaded .none 28608
     (s.shc.get .s2).next 0 = .reel 1 reelB ∧ (s.shc.get .s2).holding .armed = none ∧
     cued s = ([.cue .s2 .p3 .changeover .counted 28584 28608 24,
       .changeover .s2 false .counted (some .notArmed) 0 101 28608 none 0 0 0], .dark, false)) ∧
    (let s := showing .armed .none 28608
     (s.trm.get .p4).state ≠ .atSpeed ∧ (s.shc.get .s2).holding .armed = some (1, reelB) ∧
     cued s = ([.cue .s2 .p3 .changeover .counted 28584 28608 24,
       .changeover .s2 false .counted (some .transport) 0 101 28608 (some 1) 102 0 0], .dark, false)) ∧
    (let s := (showing .loaded .none 28608).modShc .s2 fun c => { c with
       bank0 := (c.bank0.set 1 ⟨.interval 600 3, .loaded, false⟩) }
     (s.shc.get .s2).next 0 = .interval 1 600 3 ∧ (s.shc.get .s2).holding .armed = none ∧
     cued s = ([.cue .s2 .p3 .changeover .counted 28584 28608 24], .dark, false)) := by decide

/-- A state that one of the 24 entries of the programme alone is in. -/
theorem programme_alone (x : EntryState) (i : Nat) (hx : x ≠ .empty)
    (small : ∀ k < 24, (entryAt (programme .onScreen .armed) k).state = x → k = i) (k : Nat)
    (h : (entryAt (programme .onScreen .armed) k).state = x) : k = i := by
  by_cases hk : k < 24
  · exact small k hk h
  · rw [show entryAt (programme .onScreen .armed) k = Entry.blank from
      List.getD_eq_default _ _ (Nat.le_of_not_lt hk)] at h
    exact absurd h.symm hx

theorem onScreen_alone : ∀ k, (entryAt (programme .onScreen .armed) k).state = .onScreen → k = 0 :=
  programme_alone _ _ (by decide) (by decide)

theorem armed_alone : ∀ k, (entryAt (programme .onScreen .armed) k).state = .armed → k = 1 :=
  programme_alone _ _ (by decide) (by decide)

/-- The incoming reel ready when the SHC fires the changeover cue itself. -/
def readyPastCue : State :=
  lampAs .p4 .stable (running .p4 .atSpeed 185 30000 ((showing .armed .none 28608).modShc .s2 fun c =>
    { c with motorB := true }))

theorem witness_motor_cue_changes_over :
    (let s := readyPastCue
     let c := s.shc.get .s2
     let t := after [.cueFiredEvent .p3 .motor .counted 28608] s
     c.state = .showing ∧ c.holding .onScreen = some (0, reelA) ∧ c.holdingOn .onScreen .a = some (0, reelA) ∧
     c.next 0 = .reel 1 reelB ∧ c.holding .armed = some (1, reelB) ∧ reelA.fc + 24 ≤ (s.trm.get .p3).count ∧
     (s.trm.get .p4).state = .atSpeed ∧ (s.alc.get .p4).state = .stable ∧ (s.bsu.shutters.get .p4).state = .raised ∧
     s.bsu.vetoes.get .p4 = none ∧ (s.trm.get .p4).count < reelB.fm ∧
     t.shc.s2.current = 1 ∧ t.shc.s2.progress = .none ∧ t.shc.s2.douserB = true) ∧
    (∀ k, ((readyPastCue.shc.get .s2).entry k).state = .armed → k = 1) ∧
    (∀ k, ((readyPastCue.shc.get .s2).entry k).state = .onScreen → k = 0) :=
  ⟨by decide, armed_alone, onScreen_alone⟩

theorem witness_ChangeoverPassesThePicture :
    (let s := beforeChangeover
     let c := s.shc.get Proj.p3.screen
     c.state = .showing ∧ c.holding .onScreen = some (0, reelA) ∧ reelA.side = Proj.p3.side ∧
     c.holding .armed = some (1, reelB) ∧ reelB.side = Proj.p3.side.other ∧ (s.trm.get .p4).state = .atSpeed ∧
     (s.alc.get .p4).state = .stable ∧ (s.bsu.shutters.get .p4).state = .raised ∧ s.bsu.vetoes.get .p4 = none ∧
     (s.trm.get .p4).count < reelB.fm ∧ (2 : Byte).toNat = Screen.s2.num ∧ c.next 0 = .reel 1 reelB) ∧
    (∀ k, (((beforeChangeover.shc.get .s2)).entry k).state = .onScreen → k = 0) :=
  ⟨by decide, onScreen_alone⟩

theorem witness_MissedChangeoverStandsTheReelDown :
    (let c := beforeChangeover.shc.get Proj.p3.screen
     c.state = .showing ∧ c.holdingOn .onScreen Proj.p3.side = some (0, reelA) ∧ c.next 0 = .reel 1 reelB ∧
     c.holding .armed = some (1, reelB) ∧ (c.entry 1).state = .armed) ∧
    ((showing .armed .motorFired 28582).trm.get .p4).state ≠ .atSpeed ∧
    (let s := running .p4 .atSpeed 185 30000 (showing .armed .motorFired 28582)
     (s.trm.get .p4).state = .atSpeed ∧ (s.alc.get .p4).state ≠ .stable) ∧
    ((after [.dropShutter 1 4] beforeChangeover).bsu.shutters.get .p4).state ≠ .raised ∧
    ((after [.emergencyStopInputEdge true] beforeChangeover).bsu.vetoes.get .p4).isSome = true ∧
    (let c := (showing .loaded .motorFired 28582).shc.get .s2
     (c.entry 1).state ≠ .armed ∧ c.holding .armed = none) := by decide

theorem witness_ScreensDoNotDisturbOneAnother :
    Proj.p3.screen = .s2 ∧ (2 : Byte).toNat = Screen.s2.num ∧
    (let t := after [.cueFiredEvent .p3 .changeover .sensed 28582] beforeChangeover
     t.shc.s1 = beforeChangeover.shc.s1 ∧ t.cnl.notices ≠ beforeChangeover.cnl.notices) := by
  decide

/-! ## Witnesses: chapter 4 -/

theorem witness_TransportsStartAndStop :
    (let s := running .p3 .runUp 10 28800 (booth (screen .armed .loaded))
     (s.trm.get .p3).state ≠ .stopped ∧ (s.trm.get .p3).motor = true ∧ s.bsu.fire = none ∧ s.bsu.estop = none ∧
     (s.trm.get .p3).runLength = some 28800 ∧ (s.trm.get .p3).count < 28800 ∧ (s.trm.get .p3).runUpTimer = true ∧
     (s.trm.get .p3).state = .runUp) ∧
    ((showing .loaded .none 28800).trm.get .p3).count = 28800 ∧
    ((showing .loaded .none 28800).trm.get .p3).stallTimer = true ∧
    ((showing .loaded .none 28800).trm.get .p3).state = .atSpeed ∧
    (State.reset.trm.get .p3).state = .stopped ∧ (State.reset.trm.get .p3).motor = false ∧
    (onFire State.reset).bsu.fire.isSome = true ∧
    (after [.motorOnCommand .p3] (booth (screen .armed .loaded))).trm.p3.state = .runUp ∧
    (after [.motorOnCommand .p3] State.reset).events = [.filmBreak .p3 0] := by decide

/-- The count one below the last frame and at it; a mark at each end of a window's span and outside it. -/
theorem witness_CueWindowsOpenFireAndClose :
    (windowed.trm.get .p3).window = some ⟨.motor, 29712, 24, .sensed⟩ ∧
    (markAt 29687).trm.p3.stray = 1 ∧ (markAt 29688).trm.p3.window = none ∧ (markAt 29735).trm.p3.window = none ∧
    29712 ≤ 29688 + 24 ∧ 29735 < 29712 + 24 ∧ 29687 + 24 < 29712 ∧
    (after [.cueWindowOpen .p3 .motor 29626] (windowed.modTrm .p3 fun t => { t with window := none })).trm.p3.window
      = none ∧
    (after [.cueWindowOpen .p3 .motor 29627] windowed).trm.p3.window = some ⟨.motor, 29627, 24, .sensed⟩ ∧
    (after [.markEdge .p3, .markEdge .p3] ((windowed.modTrm .p3 fun t => { t with
      window := none, stray := 254 }))).trm.p3.stray = 255 ∧
    (State.reset.trm.get .p3).motor = false := by decide

/-- The eleventh and the twelfth good period, with p × f at both ends of its range and one period outside them; the
run length; the stop limit. -/
def pulsed (good p : Nat) : Trm :=
  (after [.tachPulse .p3 (1000 + p)] ((running .p3 .runUp 100 28800 State.reset).modTrm .p3 fun t => { t with
    goodRun := good })).trm.p3

theorem witness_TachPulseCountsOneFrame :
    (running .p3 .runUp 100 28800 State.reset).trm.p3.lastPulse = some 1000 ∧
    960000 ≤ 40000 * 24 ∧ 43333 * 24 ≤ 1040000 ∧
    (pulsed 10 40000).state = .runUp ∧ (pulsed 10 40000).goodRun = 11 ∧ (pulsed 11 43333).state = .atSpeed ∧
    (pulsed 11 39999).goodRun = 0 ∧ (pulsed 11 43334).goodRun = 0 ∧
    (after [.tachPulse .p3 42667] (showing .loaded .none 28799)).trm.p3.count = 28800 ∧
    (after [.tachPulse .p3 42667] (showing .loaded .none 28799)).events = [.pictureEndReached .p3 28800] ∧
    (after [.tachPulse .p3 42667] (running .p3 .atSpeed 29039 28800 State.reset)).trm.p3.state = .stopped ∧
    (after [.tachPulse .p3 42667] (running .p3 .atSpeed 29038 28800 State.reset)).trm.p3.state = .atSpeed ∧
    (after [.tachPulse .p3 42667] (rising .start .armed 191)).shc.s2.state = .showing ∧
    (after [.tachPulse .p3 42667] (rising .start .armed 190)).shc.s2.state = .preparing ∧
    (let s := (showing .armed .none 27143).modShc .s2 fun c => { c with strikeFrame := some 27144 }
     (s.shc.get .s2).holdingOn .onScreen Proj.p3.side = some (0, reelA) ∧
     (s.shc.get .s2).holding .armed = some (1, reelB) ∧
     (after [.tachPulse .p3 42667] s).alc.p4.state = .striking) ∧
    (reelA.points.filter fun y => y.offset = 0).getLast? = some ⟨0, 2⟩ := by decide

/-! ## Witnesses: chapters 5 and 6 -/

/-- Lamps 1 and 8, 0 and 9; each refusal; an accepted strike; the attempt below the limit and at it. -/
theorem witness_LampsAreStruckAndPutOut :
    (1 : Byte).toNat = Proj.p1.num ∧ (8 : Byte).toNat = Proj.p8.num ∧ ¬((9 : Byte).toNat ≤ 8) ∧
    (after [.strike (.console 1 3)] (booth (screen .loaded .loaded))).alc.p3.state = .striking ∧
    (after [.strike (.console 1 3)] State.reset).cnl.replies = [⟨0xB8, 1, .notReady .noTrim, none, []⟩] ∧
    (after [.strike (.console 1 3), .strike (.console 2 3)] (booth (screen .loaded .loaded))).cnl.replies =
      [⟨0xB8, 1, .accepted, none, []⟩, ⟨0xB8, 2, .already, none, []⟩] ∧
    (after [.strike (.console 1 3)] (onFire (booth (screen .loaded .loaded)))).cnl.replies =
      [⟨0xB8, 1, .fireLock, none, []⟩] ∧
    (State.reset.alc.get .p3).state = .dark ∧ (lamp3 0 0).alc.p3.state ≠ .dark ∧
    (let s := after [.strike (.shc .p3)] (booth (screen .loaded .loaded))
     (s.alc.get .p3).attemptTimer = true ∧ (s.alc.get .p3).attempts < (s.alc.get .p3).limitInForce ∧
     (after [.attemptTimerExpiry .p3] s).alc.p3.coolOffTimer = true ∧
     (after [.attemptTimerExpiry .p3, .coolOffTimerExpiry .p3, .attemptTimerExpiry .p3, .coolOffTimerExpiry .p3,
       .attemptTimerExpiry .p3] s).alc.p3.state = .failed) := by decide

/-- The second and the third good sample; the fourth and the fifth low one, restruck and withheld. -/
def lit (x : LampState) (good low : Nat) (auto : Bool) : State :=
  (lampAs .p3 x (booth (screen .loaded .loaded))).modAlc .p3 fun a => { a with
    goodRun := good, lowRun := low, setup := { a.setup with auto := auto } }

theorem witness_ArcSampleTestsTheArc :
    (State.reset.alc.get .p3).state = .dark ∧ ((lit .striking 2 0 true).alc.get .p3).phase = .attempt ∧
    (after [.arcSample .p3 300 25] (lit .striking 2 0 true)).alc.p3.state = .warming ∧
    (after [.arcSample .p3 300 25] (lit .striking 1 0 true)).alc.p3.state = .striking ∧
    (after [.arcSample .p3 300 24] (lit .striking 2 0 true)).alc.p3.goodRun = 0 ∧
    (after [.arcSample .p3 300 24] (lit .stable 0 4 true)).alc.p3.state = .striking ∧
    (after [.arcSample .p3 300 24] (lit .stable 0 4 false)).alc.p3.withheld = some .off ∧
    (after [.arcSample .p3 300 24] (lit .stable 0 3 true)).alc.p3.lowRun = 4 := by decide

theorem witness_FeedFollowsCurrentAndVoltage :
    ((lamp3 2000 4492).alc.get .p3).state = .stable ∧ 25 ≤ min 255 70 ∧ ((lamp3 0 0).alc.get .p3).lowRun < 4 ∧
    (after [.arcSample .p3 370 70] ((lit .warming 0 0 true).modAlc .p3 fun a => { a with inBand := 199 })).alc.p3.state
      = .stable ∧
    (after [.arcSample .p3 371 70] ((lit .warming 0 0 true).modAlc .p3 fun a => { a with inBand := 199 })).alc.p3.inBand
      = 0 ∧
    (let s := ((showing .loaded .none 20000).modAlc .p3 fun a => { a with
       trim := 9000, consumed := 7403, service := some ⟨.s2, .b0, 0, 101, 28776, 24, false⟩ })
     (after [.arcSample .p3 361 70] s).alc.p3.service = some ⟨.s2, .b0, 0, 101, 28776, 24, true⟩ ∧
     (after [.arcSample .p3 361 70] s).alc.p3.consumed = 7406) := by decide

def lampFields (vset inom imin : Nat) (auto : Byte) : LampFields :=
  ⟨BitVec.ofNat 16 vset, 50, 255, 5, 1, BitVec.ofNat 8 inom, BitVec.ofNat 8 imin, 600, 8, 600, auto⟩

theorem witness_SetupsAndTrimsAreWritten :
    (3 : Byte).toNat = Proj.p3.num ∧ ¬(1 ≤ (0 : Byte).toNat) ∧ (State.reset.alc.get .p3).state = .dark ∧
    (after [.setTrim 1 3 16000] State.reset).cnl.replies = [⟨0xBA, 1, .done, some false, []⟩] ∧
    (after [.setTrim 1 3 16001] State.reset).alc.p3.trim = 16000 ∧
    (after [.setTrim 1 3 1] (lampAs .p3 .failed State.reset)).alc.p3.state = .dark ∧
    (after [.setTrim 1 3 1] (lamp3 0 0)).cnl.replies = [⟨0xBA, 1, .busy, some false, []⟩] ∧
    (after [.setLamp 1 3 (lampFields 600 150 150 1)] State.reset).cnl.replies = [⟨0xA1, 1, .done, some false, []⟩] ∧
    (after [.setLamp 1 3 (lampFields 601 20 150 0)] State.reset).alc.p3.setup =
      ⟨600, 50, 255, 5, 1, 30, 30, 600, 8, 600, false⟩ ∧
    (after [.setLamp 1 3 (lampFields 600 150 150 2)] State.reset).cnl.replies = [⟨0xA1, 1, .badField, some false, []⟩]
  := by decide

theorem witness_TransportsAndLampsStayLegal :
    Trm.reset.Legal ∧ Alc.reset.Legal ∧ Alc.reset.stepperForward = true ∧ ∃ t, step State.reset = .next t :=
  ⟨⟨by decide, by decide, by decide, by decide, by decide, by decide⟩,
    ⟨by decide, by decide, by decide, by decide, by decide, by decide, by decide, by decide, by decide, by decide,
    by decide, by decide, by decide, by decide, by decide⟩, rfl, _, rfl⟩

/-! ## Witnesses: chapter 7 -/

theorem witness_PresetsAndFloorAreWritten :
    (4 : Byte).toNat = Screen.s4.num ∧ (7 : Byte).toNat < 8 ∧ 8 ≤ (8 : Byte).toNat ∧ ¬((5 : Byte).toNat ≤ 4) ∧
    (after [.setPreset 1 4 7 1 2 3 601] State.reset).cnl.replies = [⟨0xA3, 1, .done, some true, []⟩] ∧
    (after [.setAuditorium 1 4 15] State.reset).hlc.s4.floor = 16 := by decide

theorem witness_RanksAreWrittenReleasedAndArbitrated :
    State.reset.hlc.s2.presets[7]? = some Preset.reset ∧ (2 : Byte).toNat = Screen.s2.num ∧
    ((0 : Byte) = 0 ∧ 8 ≤ (8 : Byte).toNat) ∧ ((2 : Byte) ≠ 0 ∧ (2 : Byte) ≠ 1) ∧ State.reset.hlc.s2.console = none ∧
    (after [.setLights 1 2 1 0 10 20 30 601] State.reset).hlc.s2.console = some ⟨10, 20, 30, 600, .explicit⟩ ∧
    (after [.post .s2 .show_ 7, .releaseLights 1 2] (after [.setLights 1 2 0 7 0 0 0 0] State.reset)).hlc.s2.winner =
      some .show_ := by decide

theorem witness_FadeReachesItsTarget :
    0 < fading.hlc.s2.house.fade.ticks ∧ fading.hlc.s2.house.fade.ticks ≤ 20 ∧
    State.reset.hlc.s2.house.fade.ticks = 0 := by decide

/-- The seventh and the eighth good interval; 3% exactly and one more; the ends of the range of an interval. -/
theorem witness_MainsLockAndDimmers :
    State.reset.mpt.previous = none ∧ locking.mpt.previous = some 70000 ∧ locking.mpt.locked = false ∧
    (after [.zeroCrossPulse 80293] locking).mpt.locked = true ∧
    (after [.zeroCrossPulse 80294] locking).mpt.run = [10294] ∧
    (after [.zeroCrossPulse 76999] locking).mpt.run = [] ∧
    (after [.zeroCrossPulse 77000] (State.reset.modMpt fun m => { m with previous := some 70000 })).mpt.run = [7000] ∧
    (after [.zeroCrossPulse 81000] (State.reset.modMpt fun m => { m with previous := some 70000 })).mpt.run = [11000] ∧
    (after [.zeroCrossPulse 80000, .zeroCrossPulse 101001] locking).mpt.locked = false ∧
    (after [.zeroCrossPulse 80000, .silenceTimerExpiry] locking).mpt.locked = false ∧
    locking.mpt.silenceTimer = true := by decide

/-! ## Witnesses: chapter 8 -/

theorem witness_BreaksCloseTheirProjectorOff :
    ((booth (screen .loaded .loaded)).bsu.shutters.get .p3).state ≠ .dropped ∧
    (State.reset.bsu.shutters.get .p3).state = .dropped ∧ State.reset.bsu.fire = none ∧
    (onFire State.reset).bsu.fire.isSome = true := by decide

/-- Shutter 5, DROPPED in the booth with its loop CLOSED and its sensor reading not up. -/
def lowered : State :=
  (booth (screen .loaded .loaded)).modBsu fun b => { b with
    shutters := b.shutters.set .p5 ⟨.dropped, .power, false, some false, three false⟩ }

theorem witness_ShuttersAreRaisedAndDropped :
    (5 : Byte).toNat = Proj.p5.num ∧ ¬((9 : Byte).toNat ≤ 8) ∧
    (after [.raiseShutter 1 5] lowered).bsu.shutters.p5 = ⟨.raising, .power, true, some false, three false⟩ ∧
    (after [.raiseShutter 1 5, .raiseTimerExpiry .p5] lowered).bsu.shutters.p5.reason = .fault ∧
    (after [.raiseShutter 1 5, .shutterUpSensorEdge .p5 true] lowered).bsu.vetoes.p5 = none ∧
    (after [.raiseShutter 1 5, .emergencyStopInputEdge true, .shutterUpSensorEdge .p5 true] lowered).bsu.vetoes.p5 =
      some .estop ∧
    (after [.raiseShutter 1 3, .raiseShutter 2 1] (onFire lowered)).cnl.replies =
      [⟨0xC8, 1, .fireLock, none, []⟩, ⟨0xC8, 2, .fireLock, none, []⟩] ∧
    (lowered.bsu.shutters.get .p3).state = .raised ∧ lowered.bsu.fire = none ∧
    (after [.shutterUpSensorEdge .p3 false] lowered).bsu.fire = some ⟨.portLink, false, true, false, 64000, some .p3⟩ ∧
    (lowered.bsu.shutters.get .p5).raiseTimer = false := by decide

theorem witness_LatchesAreSetJoinedAndCleared :
    (State.reset.bsu.fire = none ∧ State.reset.bsu.estop = none) ∧
    (after [.raiseAlarm 1] State.reset).bsu.fire = some ⟨.alarm, false, false, true, 0, none⟩ ∧
    (after [.raiseAlarm 1, .fireInputEdge true] State.reset).bsu.fire = some ⟨.alarm, true, false, true, 0, none⟩ ∧
    (onFire State.reset).bsu.fireInput = some true ∧
    (after [.fireInputEdge false, .clearFire 1] (onFire State.reset)).bsu.fire = none ∧
    (let s := after [.emergencyStopInputEdge true] (booth (screen .loaded .loaded))
     s.bsu.estop.isSome = true ∧ s.bsu.estopInput = some true ∧
     (after [.emergencyStopInputEdge false, .clearEstop 1] s).bsu.vetoes.p3 = none ∧
     (after [.emergencyStopInputEdge false, .clearEstop 1] s).bsu.vetoes.p1 = some .estop) := by decide

theorem witness_ExhaustAndInputs :
    State.reset.bsu.proven = false ∧ (after [.exhaustProvingEdge true] State.reset).bsu.provingTimer = true ∧
    (booth (screen .loaded .loaded)).bsu.proven = true ∧
    (after [.exhaustProvingEdge false] (booth (screen .loaded .loaded))).bsu.lossTimer = true ∧
    State.reset.trm.p3.cueMark = none ∧ State.reset.trm.p3.loopClosed = none ∧ State.reset.bsu.shutters.p3.up = none ∧
    State.reset.bsu.fireInput = none ∧ State.reset.bsu.estopInput = none ∧ State.reset.bsu.exhaustInput = none ∧
    (after [.inputSettling (.loopSwitch .p3) true false true] State.reset).trm.p3.loopClosed = some true ∧
    (after [.inputSettling .fire true true false] State.reset).bsu.fire.isSome = true ∧
    (booth (screen .loaded .loaded)).bsu.exhaustInput.isSome = true := by decide

theorem reset_bsu_safe : State.reset.bsu.Safe :=
  ⟨fun h => absurd h (by decide), fun _ p => by cases p <;> decide, fun p => by cases p <;> decide,
    fun h => absurd h (by decide), fun h => absurd h (by decide)⟩

/-! ### The switch-type inputs -/

/-- Every input settled and at rest, as its pin is; no frame in transmission. -/
def still : State :=
  { State.reset with
    trm := Oct.const { Trm.reset with
      loopClosed := some false, cueMark := some false, loopSamples := three false, cueSamples := three false }
    bsu := { Bsu.reset with
      fireInput := some false, estopInput := some false, exhaustInput := some false,
      fireSamples := three false, estopSamples := three false, exhaustSamples := three false,
      shutters := Oct.const { Shutter.reset with up := some false, upSamples := three false } } }

theorem still_steady : ∀ i, still.Steady i := by
  intro i
  cases i <;> first | exact ⟨rfl, rfl⟩ | (rename_i p; cases p <;> exact ⟨rfl, rfl⟩)

/-- The emergency-stop input at another level or with another history, every other input at rest. -/
def estopWith (pin : Bool) (level : Option Bool) (h : List Bool) : State :=
  { still with
    pins := { still.pins with estop := pin }, bsu := { still.bsu with estopInput := level, estopSamples := h } }

theorem estopWith_steady (pin : Bool) (level : Option Bool) (h : List Bool) :
    ∀ j, j ≠ .estop → (estopWith pin level h).Steady j := by
  intro j hj
  cases j <;> first | exact absurd rfl hj | exact ⟨rfl, rfl⟩ | (rename_i p; cases p <;> exact ⟨rfl, rfl⟩)

/-- The state after an idle step, at the emergency stop. -/
def ticked (s : State) : Option Bool × List Bool × Bool :=
  match step s with
  | .next t => (t.bsu.estopInput, t.bsu.estopSamples, t.bsu.estop.isSome)
  | _ => (none, [], false)

/-- R75, R76: the first, the second and the third sample after a reset; a lone sample; the sample that makes the
majority differ. -/
theorem witness_IdleTickSamplesTheInputs :
    still.pending = [] ∧ still.events = [] ∧ still.cnl.tx = none ∧
    ticked (estopWith true none []) = (none, [true], false) ∧
    ticked (estopWith true none [true]) = (none, [true, true], false) ∧
    ticked (estopWith true none [true, false]) = (some true, [true, false, true], true) ∧
    ticked (estopWith true (some false) [false, false, false]) = (some false, [false, false, true], false) ∧
    ticked (estopWith false (some false) [false, false, true]) = (some false, [false, true, false], false) ∧
    ticked (estopWith true (some false) [false, false, true]) = (some true, [false, true, true], true) := by decide

/-- A frame in transmission: a byte sent, up to the one before the SUM byte. -/
def sending (x : Transmission) : State :=
  { still with cnl := { still.cnl with tx := some x, replies := [replyOf 0x90] } }
def sentAfter (x : Transmission) : Option Transmission :=
  match step (sending x) with
  | .next t => t.cnl.tx
  | _ => none

theorem witness_bytes_are_sent :
    (sending ⟨true, 0⟩).cnl.replies = [replyOf 0x90] ∧ (sending ⟨false, 0⟩).cnl.notices ≠ [] ∧
    sentAfter ⟨true, 0⟩ = some ⟨true, 1⟩ ∧ sentAfter ⟨true, 5⟩ = some ⟨true, 5⟩ ∧
    sentAfter ⟨false, 9⟩ = some ⟨false, 10⟩ ∧ sentAfter ⟨false, 10⟩ = some ⟨false, 10⟩ := by decide

theorem witness_InputsFollowTheirSamples :
    (State.reset.InputKept .estop ∧ ∃ t, step State.reset = .next t) ∧ (estopWith true none [true, false]).InputKept .estop ∧
    still.InputKept .estop :=
  ⟨⟨⟨by decide, fun _ => rfl, fun _ _ _ h => by cases h⟩, _, rfl⟩,
    ⟨by decide, fun _ => rfl, fun _ _ _ h => by cases h⟩,
    ⟨by decide, fun h => absurd h (by decide), fun _ _ _ h => by cases h; rfl⟩⟩

theorem witness_BoothSafetyHoldsAtEveryStep : State.reset.bsu.Safe ∧ ∃ t, step State.reset = .next t :=
  ⟨reset_bsu_safe, _, rfl⟩

theorem witness_HaltRecordIsPresentExactlyInHalted :
    (State.reset.shc.get .s2).HaltKept ∧ (State.reset.shc.get .s2).FullBanks ∧ ∃ t, step State.reset = .next t :=
  ⟨by unfold Shc.HaltKept; decide, ⟨rfl, rfl⟩, _, rfl⟩

end Sys2Proof.Tests
end

section
namespace Sys2Proof.Machine

/-! ## Numbers that name a screen (R190) -/

theorem screenOf_eq_some_iff {b : Byte} {sc : Screen} : screenOf b = some sc ↔ b.toNat = sc.num := by
  constructor
  · intro h
    unfold screenOf at h
    split at h <;> cases h <;> assumption
  · intro h
    cases sc <;> simp [screenOf, h, Screen.num]

theorem screenOf_eq_none_iff {b : Byte} : screenOf b = none ↔ ¬(1 ≤ b.toNat ∧ b.toNat ≤ 4) := by
  unfold screenOf
  split
  case h_5 h1 h2 h3 h4 =>
    simp only [imp_false, true_iff] at h1 h2 h3 h4 ⊢
    omega
  all_goals simp [*]

/-! ## CANCEL SWITCH (R17) -/

theorem exec_cancelSwitch (tag screen : Byte) (s : State) :
    exec (.cancelSwitch tag screen) s = .next (cancelSwitch tag screen (s.taken (.cancelSwitch tag screen))) := rfl

theorem cancelSwitch_of_no_screen {screen : Byte} (hs : screenOf screen = none) (tag : Byte) (s : State) :
    cancelSwitch tag screen s = s.answer 0x2C tag .noSuch := by
  simp only [cancelSwitch, hs]

theorem cancelSwitch_of_not_pending {screen : Byte} {sc : Screen} {s : State} (hs : screenOf screen = some sc)
    (hw : (s.shc.get sc).switch = none) (tag : Byte) : cancelSwitch tag screen s = s.answer 0x2C tag .noSuch := by
  simp only [cancelSwitch, hs, hw]

theorem cancelSwitch_of_pending {screen : Byte} {sc : Screen} {w : PendingSwitch} {s : State}
    (hs : screenOf screen = some sc) (hw : (s.shc.get sc).switch = some w) (tag : Byte) :
    cancelSwitch tag screen s =
      ((s.modShc sc fun c => { c with switch := none }).note (.switch sc false w.t0 w.tc w.np)).answer 0x2C tag
        .done := by
  simp only [cancelSwitch, hs, hw]

/-- Settles O18: by the screen the byte names and by the presence of its pending-switch record. -/
theorem cancelSwitchRemovesThePendingSwitch : Obligations.CancelSwitchRemovesThePendingSwitch := by
  intro tag screen s i refused
  refine ⟨fun hscreen => ?_, fun sc hscreen => ?_⟩
  · rw [exec_cancelSwitch, cancelSwitch_of_no_screen (screenOf_eq_none_iff.2 hscreen)]
    rfl
  · have hs := screenOf_eq_some_iff.2 hscreen
    refine ⟨fun hnone => ?_, fun w hsome => ?_⟩
    · rw [exec_cancelSwitch, cancelSwitch_of_not_pending (s := s.taken i) hs hnone]
      rfl
    · rw [exec_cancelSwitch, cancelSwitch_of_pending (s := s.taken i) hs hsome]
      rfl

end Sys2Proof.Machine
end

section
namespace Sys2Proof.Machine

/-! ## Numbers that name a preset (R190) -/

theorem presetOf_eq_some {b : Byte} (hb : b.toNat < 8) : presetOf b = some b.toNat := if_pos hb

theorem presetOf_eq_none {b : Byte} (hb : 8 ≤ b.toNat) : presetOf b = none := if_neg (Nat.not_lt.2 hb)

/-! ## SET PRESET (R133) -/

theorem exec_setPreset (tag aud preset house aisle stage : Byte) (fade : Half) (s : State) :
    exec (.setPreset tag aud preset house aisle stage fade) s =
      .next (setPreset tag aud preset house aisle stage fade
        (s.taken (.setPreset tag aud preset house aisle stage fade))) := rfl

theorem setPreset_of_no_such {aud preset : Byte} (hno : screenOf aud = none ∨ presetOf preset = none)
    (tag house aisle stage : Byte) (fade : Half) (s : State) :
    setPreset tag aud preset house aisle stage fade s = s.answerSet 0x23 tag .noSuch false := by
  obtain hscreen | hpreset := hno
  · simp only [setPreset, hscreen]
  · cases hscreen : screenOf aud <;> simp only [setPreset, hscreen, hpreset]

theorem setPreset_of_named {aud preset : Byte} {sc : Screen} {n : Nat} (hscreen : screenOf aud = some sc)
    (hpreset : presetOf preset = some n) (tag house aisle stage : Byte) (fade : Half) (s : State) :
    setPreset tag aud preset house aisle stage fade s =
      (s.modHlc sc fun h =>
        { h with presets := h.presets.set n ⟨house.toNat, aisle.toNat, stage.toNat, min 600 fade.toNat⟩ }).answerSet
        0x23 tag .done (600 < fade.toNat) := by
  simp only [setPreset, hscreen, hpreset]

/-! ## SET AUDITORIUM (R146) -/

theorem exec_setAuditorium (tag aud floor : Byte) (s : State) :
    exec (.setAuditorium tag aud floor) s =
      .next (setAuditorium tag aud floor (s.taken (.setAuditorium tag aud floor))) := rfl

theorem setAuditorium_of_no_screen {aud : Byte} (hscreen : screenOf aud = none) (tag floor : Byte) (s : State) :
    setAuditorium tag aud floor s = s.answerSet 0x22 tag .noSuch false := by
  simp only [setAuditorium, hscreen]

theorem setAuditorium_of_screen {aud : Byte} {sc : Screen} (hscreen : screenOf aud = some sc) (tag floor : Byte)
    (s : State) :
    setAuditorium tag aud floor s =
      (s.modHlc sc fun h => { h with floor := max 16 floor.toNat }).answerSet 0x22 tag .done (floor.toNat < 16) := by
  simp only [setAuditorium, hscreen]

/-- Settles O48: for each request, by whether its bytes name an auditorium and, for SET PRESET, a preset. -/
theorem presetsAndFloorAreWritten : Obligations.PresetsAndFloorAreWritten := by
  constructor
  · intro tag aud preset house aisle stage fade s i
    refine ⟨fun hno => ?_, fun sc haud hpreset => ?_⟩
    · rw [exec_setPreset, setPreset_of_no_such (hno.imp screenOf_eq_none_iff.2 presetOf_eq_none)]
      rfl
    · rw [exec_setPreset, setPreset_of_named (screenOf_eq_some_iff.2 haud) (presetOf_eq_some hpreset)]
      rfl
  · intro tag aud floor s i
    refine ⟨fun hno => ?_, fun sc haud => ?_⟩
    · rw [exec_setAuditorium, setAuditorium_of_no_screen (screenOf_eq_none_iff.2 hno)]
      rfl
    · rw [exec_setAuditorium, setAuditorium_of_screen (screenOf_eq_some_iff.2 haud)]
      rfl

end Sys2Proof.Machine
end

section
namespace Sys2Proof.Machine

/-! ## Transport records stay legal (R77 to R92) -/

namespace Trm.Legal

variable {t : Trm}

theorem armFor (h : t.Legal) (lp : Nat) : (t.armFor lp).Legal :=
  ⟨h.motor, h.runUp, h.stall, h.goodRun, Nat.zero_le _, h.stray⟩

theorem stop (h : t.Legal) : t.stop.Legal := by
  unfold Trm.stop
  split
  · exact h
  · exact ⟨by simp, by simp, by simp, Nat.zero_le _, h.count, h.stray⟩

theorem startMotor (h : t.Legal) : t.startMotor.Legal :=
  ⟨by simp [Trm.startMotor], by simp [Trm.startMotor], by simp [Trm.startMotor], Nat.zero_le _, h.count, h.stray⟩

theorem window (h : t.Legal) (w : Option CueWindow) : ({ t with window := w } : Trm).Legal :=
  ⟨h.motor, h.runUp, h.stall, h.goodRun, h.count, h.stray⟩

theorem advance (h : t.Legal) (hc : t.count < 65535) : ({ t with count := t.count + 1 } : Trm).Legal :=
  ⟨h.motor, h.runUp, h.stall, h.goodRun, hc, h.stray⟩

theorem timed (h : t.Legal) (pulse period : Option Nat) :
    ({ t with lastPulse := pulse, lastPeriod := period } : Trm).Legal :=
  ⟨h.motor, h.runUp, h.stall, h.goodRun, h.count, h.stray⟩

theorem setRun (h : t.Legal) {n : Nat} (hn : n ≤ 12) : ({ t with goodRun := n } : Trm).Legal :=
  ⟨h.motor, h.runUp, h.stall, hn, h.count, h.stray⟩

theorem reachSpeed (h : t.Legal) (ht : t.state = .runUp) :
    ({ t with goodRun := Config.goodPeriods, state := .atSpeed, runUpTimer := false, stallTimer := true } :
      Trm).Legal :=
  ⟨by simpa [ht] using h.motor, by simp, by simp, Nat.le_refl _, h.count, h.stray⟩

theorem restartStall (h : t.Legal) : t.restartStall.Legal := by
  unfold Trm.restartStall
  split
  · next ht => exact ⟨h.motor, h.runUp, by simp [ht], h.goodRun, h.count, h.stray⟩
  · exact h

theorem strayEdge (h : t.Legal) : t.strayEdge.Legal := by
  unfold Trm.strayEdge
  split
  · exact ⟨h.motor, h.runUp, h.stall, h.goodRun, h.count, Nat.min_le_left _ _⟩
  · exact h

theorem clearStray (h : t.Legal) : t.clearStray.Legal :=
  ⟨h.motor, h.runUp, h.stall, h.goodRun, h.count, Nat.zero_le _⟩

theorem cueLevel (h : t.Legal) (v : Option Bool) (x : List Bool) :
    ({ t with cueMark := v, cueSamples := x } : Trm).Legal :=
  ⟨h.motor, h.runUp, h.stall, h.goodRun, h.count, h.stray⟩

theorem loopLevel (h : t.Legal) (v : Option Bool) (x : List Bool) :
    ({ t with loopClosed := v, loopSamples := x } : Trm).Legal :=
  ⟨h.motor, h.runUp, h.stall, h.goodRun, h.count, h.stray⟩

theorem reset : Trm.reset.Legal := ⟨by decide, by decide, by decide, by decide, by decide, by decide⟩

end Trm.Legal

/-! ## Lamp records stay legal (R95 to R118) -/

namespace Alc.Legal

variable {a : Alc}

theorem service (h : a.Legal) (v : Option ServiceRecord) : ({ a with service := v } : Alc).Legal :=
  ⟨h.burnt, h.fitted, h.striker, h.attempt, h.coolOff, h.attempts, h.left, h.limit, h.inForce, h.steps, h.feedLeft,
    h.tests, h.low, h.carbon, h.sample⟩

theorem withheld (h : a.Legal) (w : Option Withheld) : ({ a with withheld := w } : Alc).Legal :=
  ⟨h.burnt, h.fitted, h.striker, h.attempt, h.coolOff, h.attempts, h.left, h.limit, h.inForce, h.steps, h.feedLeft,
    h.tests, h.low, h.carbon, h.sample⟩

/-- R96: a lamp that leaves the arc has every strike timer stopped. -/
theorem enter_unlit (h : a.Legal) {new : LampState} (hn : new.lit = false) (cause : LampCause) :
    (a.enter new cause).Legal := by
  cases new <;> simp [LampState.lit] at hn <;> exact ⟨h.burnt, h.fitted, by simp [Alc.enter], by simp [Alc.enter],
    by simp [Alc.enter], h.attempts, by simp [Alc.enter], h.limit, h.inForce, h.steps, h.feedLeft, h.tests,
    by simp [Alc.enter], by simp [Alc.enter, LampState.lit], h.sample⟩

/-- R102, R104: an arc that burns has its strike timers stopped and carbon left. -/
theorem enter_burning (h : a.Legal) {new : LampState} (hn : new = .warming ∨ new = .stable) (cause : LampCause)
    (hl : a.lowRun ≤ 4) (hc : a.consumed < a.trim) : (a.enter new cause).Legal := by
  obtain rfl | rfl := hn <;> exact ⟨h.burnt, h.fitted, by simp [Alc.enter], by simp [Alc.enter],
    by simp [Alc.enter], h.attempts, by simp [Alc.enter], h.limit, h.inForce, h.steps, h.feedLeft, h.tests,
    fun _ => hl, fun _ => hc, h.sample⟩

/-- R100: a strike of a lamp with trim left begins in its first attempt. -/
theorem strike (h : a.Legal) (hr : a.consumed < a.trim) (cause : LampCause) :
    ((a.prepareStrike.enter .striking cause).beginAttempt).Legal where
  burnt := h.burnt
  fitted := h.fitted
  striker := fun _ => ⟨rfl, rfl⟩
  attempt := ⟨fun _ => ⟨rfl, rfl⟩, fun _ => rfl⟩
  coolOff := ⟨nofun, nofun⟩
  attempts := h.limit
  left := nofun
  limit := h.limit
  inForce := ⟨h.inForce.2, h.inForce.2⟩
  steps := h.steps
  feedLeft := Nat.succ_pos _
  tests := ⟨Nat.zero_le _, Nat.zero_le _, Nat.zero_le _⟩
  low := fun _ => Nat.zero_le _
  carbon := fun _ => hr
  sample := h.sample

theorem remaining_pos (hr : a.remaining ≠ 0) : a.consumed < a.trim := by
  unfold Alc.remaining at hr
  omega

theorem stopStriker (h : a.Legal) : ({ a with strikerTimer := false } : Alc).Legal :=
  ⟨h.burnt, h.fitted, by simp, h.attempt, h.coolOff, h.attempts, h.left, h.limit, h.inForce, h.steps, h.feedLeft,
    h.tests, h.low, h.carbon, h.sample⟩

/-- R103: the attempt timer begins a cool-off while attempts are left. -/
theorem beginCoolOff (h : a.Legal) (ht : a.attemptTimer = true) (hl : a.attempts < a.limitInForce) :
    ({ a with strikerTimer := false, attemptTimer := false, phase := .coolOff, coolOffTimer := true } : Alc).Legal where
  burnt := h.burnt
  fitted := h.fitted
  striker := nofun
  attempt := ⟨nofun, nofun⟩
  coolOff := ⟨fun _ => ⟨(h.attempt.1 ht).1, rfl⟩, fun _ => rfl⟩
  attempts := h.attempts
  left := fun _ => hl
  limit := h.limit
  inForce := h.inForce
  steps := h.steps
  feedLeft := h.feedLeft
  tests := h.tests
  low := h.low
  carbon := h.carbon
  sample := h.sample

/-- R103: the cool-off timer begins the next attempt. -/
theorem nextAttempt (h : a.Legal) (ht : a.coolOffTimer = true) : a.beginAttempt.Legal where
  burnt := h.burnt
  fitted := h.fitted
  striker := fun _ => ⟨(h.coolOff.1 ht).1, rfl⟩
  attempt := ⟨fun _ => ⟨(h.coolOff.1 ht).1, rfl⟩, fun _ => rfl⟩
  coolOff := ⟨nofun, nofun⟩
  attempts := h.left ht
  left := nofun
  limit := h.limit
  inForce := h.inForce
  steps := h.steps
  feedLeft := h.feedLeft
  tests := ⟨Nat.zero_le _, h.tests.2⟩
  low := h.low
  carbon := h.carbon
  sample := h.sample

theorem setTests (h : a.Legal) {g b l : Nat} (hg : g ≤ 3) (hb : b ≤ 200) (hl : l ≤ 5)
    (hw : a.state = .warming ∨ a.state = .stable → l ≤ 4) :
    ({ a with goodRun := g, inBand := b, lowRun := l } : Alc).Legal :=
  ⟨h.burnt, h.fitted, h.striker, h.attempt, h.coolOff, h.attempts, h.left, h.limit, h.inForce, h.steps, h.feedLeft,
    ⟨hg, hb, hl⟩, hw, h.carbon, h.sample⟩

theorem sampled (h : a.Legal) (vm im : Nat) : (a.sample vm im).Legal :=
  ⟨h.burnt, h.fitted, h.striker, h.attempt, h.coolOff, h.attempts, h.left, h.limit, h.inForce, Nat.zero_le _,
    h.feedLeft, h.tests, h.low, h.carbon, ⟨Nat.min_le_left _ _, Nat.min_le_left _ _⟩⟩

theorem feedSteps_le (a : Alc) : a.feedSteps ≤ 8 ∧ a.feedSteps ≤ a.remaining := by
  unfold Alc.feedSteps
  rw [show Config.feedLimit = 8 from rfl]
  omega

/-- R109 to R111: a feed that leaves carbon leaves a legal record. -/
theorem feed (h : a.Legal) (hc : a.feed.consumed ≠ a.feed.trim) : a.feed.Legal where
  burnt := by
    have := h.burnt
    have := (feedSteps_le a).2
    simp only [Alc.feed, Alc.remaining] at *
    omega
  fitted := h.fitted
  striker := h.striker
  attempt := h.attempt
  coolOff := h.coolOff
  attempts := h.attempts
  left := h.left
  limit := h.limit
  inForce := h.inForce
  steps := (feedSteps_le a).1
  feedLeft := Nat.mod_lt _ (by decide)
  tests := h.tests
  low := h.low
  carbon := fun _ => by
    have := h.burnt
    have := (feedSteps_le a).2
    simp only [Alc.feed, Alc.remaining] at *
    omega
  sample := h.sample

/-- R112: a feed that burns the last of the trim puts the lamp out. -/
theorem feed_out (h : a.Legal) (v : Option ServiceRecord) (cause : LampCause) :
    (({ a.feed with service := v } : Alc).enter .dark cause).Legal where
  burnt := by
    have := h.burnt
    have := (feedSteps_le a).2
    simp only [Alc.feed, Alc.remaining, Alc.enter, reduceCtorEq, if_false] at *
    omega
  fitted := h.fitted
  striker := by simp [Alc.enter]
  attempt := by simp [Alc.enter]
  coolOff := by simp [Alc.enter]
  attempts := h.attempts
  left := by simp [Alc.enter]
  limit := h.limit
  inForce := h.inForce
  steps := (feedSteps_le a).1
  feedLeft := Nat.mod_lt _ (by decide)
  tests := h.tests
  low := by simp [Alc.enter]
  carbon := by simp [Alc.enter, LampState.lit]
  sample := h.sample

/-- R117: a trim is fitted in a lamp that is not lit. -/
theorem newTrim (h : a.Legal) (hl : a.state.lit = false) {n : Nat} (hn : n ≤ 16000) : (a.newTrim n).Legal :=
  ⟨Nat.zero_le _, hn, h.striker, h.attempt, h.coolOff, h.attempts, h.left, h.limit, h.inForce, h.steps, h.feedLeft,
    h.tests, h.low, fun x => by simp [Alc.newTrim, hl] at x, h.sample⟩

/-- R113: a setup whose attempt limit is in its range. -/
theorem setup (h : a.Legal) {x : LampSetup} (h1 : 1 ≤ x.limit) (h8 : x.limit ≤ 8) :
    ({ a with setup := x } : Alc).Legal :=
  ⟨h.burnt, h.fitted, h.striker, h.attempt, h.coolOff, h.attempts, h.left, h1, ⟨h.inForce.1, h8⟩, h.steps,
    h.feedLeft, h.tests, h.low, h.carbon, h.sample⟩

theorem reset : Alc.reset.Legal := by
  constructor <;> decide

end Alc.Legal

end Sys2Proof.Machine
end

section
namespace Sys2Proof.Machine

/-! ## Records of a screen: what the operations on banks, motors and dousers leave -/

namespace Shc

variable (c : Shc) (b : BankId) (es : List Entry) (i : Nat) (f : Entry → Entry) (st : EntryState) (side : Side)
  (on : Bool)

@[simp] theorem setBank_state : (c.setBank b es).state = c.state := by cases b <;> rfl
@[simp] theorem setBank_halt : (c.setBank b es).halt = c.halt := by cases b <;> rfl
@[simp] theorem modEntry_state : (c.modEntry b i f).state = c.state := setBank_state _ _ _
@[simp] theorem modEntry_halt : (c.modEntry b i f).halt = c.halt := setBank_halt _ _ _
@[simp] theorem enter_state : (c.enter i st).state = c.state := setBank_state _ _ _
@[simp] theorem enter_halt : (c.enter i st).halt = c.halt := setBank_halt _ _ _
@[simp] theorem mapActive_state : (c.mapActive f).state = c.state := setBank_state _ _ _
@[simp] theorem mapActive_halt : (c.mapActive f).halt = c.halt := setBank_halt _ _ _
@[simp] theorem setMotor_state : (c.setMotor side on).state = c.state := by cases side <;> rfl
@[simp] theorem setMotor_halt : (c.setMotor side on).halt = c.halt := by cases side <;> rfl
@[simp] theorem setDouser_state : (c.setDouser side on).state = c.state := by cases side <;> rfl
@[simp] theorem setDouser_halt : (c.setDouser side on).halt = c.halt := by cases side <;> rfl

/-- R43, R1: the halt record stands exactly in HALTED, and the banks are full. -/
def Held : Prop := c.HaltKept ∧ c.FullBanks

variable {c}

theorem Held.same {d : Shc} (h : c.Held) (hs : d.state = c.state := by rfl) (hh : d.halt = c.halt := by rfl)
    (h0 : d.bank0 = c.bank0 := by rfl) (h1 : d.bank1 = c.bank1 := by rfl) : d.Held := by
  unfold Held HaltKept FullBanks at *
  rw [hs, hh, h0, h1]
  exact h

theorem Held.setMotor (h : c.Held) (side : Side) (on : Bool) : (c.setMotor side on).Held := by
  cases side <;> exact h.same

theorem held_reset : Shc.reset.Held := ⟨by simp [HaltKept, Shc.reset], rfl, rfl⟩

theorem haltKept_of_none (hh : c.halt = none) (hs : c.state ≠ .halted) : c.HaltKept := by
  simp [HaltKept, hh, hs]

theorem state_of_preparing {x : Nat × Reel} (h : c.preparing = some x) : c.state = .preparing := by
  unfold preparing at h
  split at h
  · assumption
  · cases h

theorem HaltKept.none (h : c.HaltKept) (hs : c.state ≠ .halted) : c.halt = .none := by
  simpa [HaltKept, hs] using h

end Shc

variable {sc : Screen} {s t u : State}

/-! ## Operations of a screen that neither halt it nor change its state (R43)

`SameHalt sc s t`: the state of screen `sc` and its halt record are in `t` what they were in `s`. -/

structure SameHalt (sc : Screen) (s t : State) : Prop where
  state : (t.shc.get sc).state = (s.shc.get sc).state
  halt : (t.shc.get sc).halt = (s.shc.get sc).halt

namespace SameHalt

theorem refl (s : State) : SameHalt sc s s := ⟨rfl, rfl⟩

theorem of_shc (h : SameHalt sc s t) (e : u.shc = t.shc := by rfl) : SameHalt sc s u := by
  obtain ⟨hs, hh⟩ := h
  exact ⟨e ▸ hs, e ▸ hh⟩

theorem kept (h : SameHalt sc s t) (hs : (s.shc.get sc).HaltKept) : (t.shc.get sc).HaltKept := by
  unfold Shc.HaltKept
  rw [h.state, h.halt]
  exact hs

theorem shc (h : SameHalt sc s t) (f : Shc → Shc) (hs : ∀ c, (f c).state = c.state := by simp)
    (hh : ∀ c, (f c).halt = c.halt := by simp) : SameHalt sc s (t.modShc sc f) :=
  ⟨by simp [hs, h.state], by simp [hh, h.halt]⟩

theorem note (h : SameHalt sc s t) (b : NoticeBody) : SameHalt sc s (t.note b) := h.of_shc

theorem emit (h : SameHalt sc s t) (e : Instr) : SameHalt sc s (t.emit e) := h.of_shc

theorem reply (h : SameHalt sc s t) (kind tag : Byte) (r : Result) (adj : Option Bool) (d : List Byte) :
    SameHalt sc s (t.reply kind tag r adj d) := h.of_shc

theorem answer (h : SameHalt sc s t) (kind tag : Byte) (r : Result) : SameHalt sc s (t.answer kind tag r) := h.of_shc

/-! ### Chapters 1 and 3: notices, arming, strikes -/

theorem noteEntry (h : SameHalt sc s t) (b : BankId) (i : Nat) (r : Reel) (x : EntryReason) (short : Bool)
    (y : Option NotReady) : SameHalt sc s (t.noteEntry sc b i r x short y) := h.of_shc

theorem noteFault (h : SameHalt sc s t) (p : Nat) (res : Resolved) : SameHalt sc s (t.noteFault sc p res) := by
  unfold State.noteFault
  split
  · exact h.note _
  · exact h

theorem noteLost (h : SameHalt sc s t) (b : BankId) (i : Nat) (e : Entry) : SameHalt sc s (t.noteLost sc b i e) := by
  unfold State.noteLost
  split
  · split
    · exact h.noteEntry _ _ _ _ _ _
    · exact h
  · exact h

theorem noteLostAll (h : SameHalt sc s t) (b : BankId) (es : List Entry) (i : Nat) :
    SameHalt sc s (t.noteLostAll sc b es i) := by
  induction es generalizing t i with
  | nil => exact h
  | cons e es ih => exact ih (h.noteLost b i e) _

theorem noteMoved (h : SameHalt sc s t) (b : BankId) (side : Side) (es : List Entry) (i : Nat) :
    SameHalt sc s (t.noteMoved sc b side es i) := by
  induction es generalizing t i with
  | nil => exact h
  | cons e es ih =>
    unfold State.noteMoved
    split
    · split
      · exact ih (h.noteEntry _ _ _ _ _ _) _
      · exact ih h _
    · exact ih h _

theorem skip (h : SameHalt sc s t) (x : Schedule) (gone : Nat → Bool) (r : SchedReason) :
    SameHalt sc s (t.skip sc x gone r) := by
  unfold State.skip
  split
  · exact h
  · exact (h.shc _).note _

theorem takeSwitch (h : SameHalt sc s t) (w : PendingSwitch) (now : Nat) : SameHalt sc s (t.takeSwitch sc w now) :=
  ((h.shc _ (by simp [Shc.takeSwitch]) (by simp [Shc.takeSwitch])).note _).skip _ _ _

theorem testSwitch (h : SameHalt sc s t) (now : Nat) : SameHalt sc s (t.testSwitch sc now) := by
  unfold State.testSwitch
  dsimp only
  split
  · exact h
  · split
    · exact h.takeSwitch _ _
    · exact h

theorem judge (h : SameHalt sc s t) (i : Nat) (r : Reel) (k : TrimCase) : SameHalt sc s (t.judge sc i r k).2 := by
  unfold State.judge
  split
  · exact h
  · dsimp only
    split
    · exact h.noteFault _ _
    · split <;> exact h.noteFault _ _

theorem arm (h : SameHalt sc s t) (i : Nat) (r : Reel) (short : Bool) : SameHalt sc s (t.arm sc i r short) :=
  (h.shc fun c => c.modEntry (t.shc.get sc).active i (·.arm short)).of_shc

theorem askStrike (h : SameHalt sc s t) (p : Proj) : SameHalt sc s (t.askStrike p).2 :=
  h.of_shc (Moves.askStrike_shows rfl).2

theorem strikeIncoming (h : SameHalt sc s t) (i : Nat) (r : Reel) : SameHalt sc s (t.strikeIncoming sc i r) := by
  have hs := h.askStrike (sc.proj r.side)
  unfold State.strikeIncoming
  dsimp only
  split
  · exact h
  · split
    · next he => rw [he] at hs; exact hs
    · next he => rw [he] at hs; exact hs.noteEntry _ _ _ _ _ _

theorem dropStrikeFrame (h : SameHalt sc s t) : SameHalt sc s (t.dropStrikeFrame sc) := h.shc _

theorem makeStrike (h : SameHalt sc s t) : SameHalt sc s (t.makeStrike sc) := by
  unfold State.makeStrike
  dsimp only
  split
  · exact h.dropStrikeFrame.strikeIncoming _ _
  · exact h.dropStrikeFrame

theorem placeStrike (h : SameHalt sc s t) (r : Reel) (fc n : Nat) : SameHalt sc s (t.placeStrike sc r fc n) := by
  unfold State.placeStrike
  dsimp only
  split
  · exact h.dropStrikeFrame
  · split
    · exact h.makeStrike
    · exact h.shc _

theorem motorOn (h : SameHalt sc s t) (side : Side) : SameHalt sc s (t.motorOn (sc.proj side)) := by
  unfold State.motorOn
  rw [proj_screen]
  exact (h.shc _).emit _

theorem motorOff (h : SameHalt sc s t) (side : Side) : SameHalt sc s (t.motorOff (sc.proj side)) := by
  unfold State.motorOff
  rw [proj_screen]
  exact (h.shc _).emit _

theorem startIncoming (h : SameHalt sc s t) (i : Nat) (r : Reel) : SameHalt sc s (t.startIncoming sc i r) := by
  unfold State.startIncoming
  dsimp only
  split
  · exact h.motorOn _
  · exact (h.motorOn _).dropStrikeFrame.strikeIncoming _ _

theorem setTrimHold (h : SameHalt sc s t) (x : Option Nat) : SameHalt sc s (t.setTrimHold sc x) := h.shc _

theorem afterArming (h : SameHalt sc s t) (i : Nat) (r : Reel) (k : TrimCase) :
    SameHalt sc s (t.afterArming sc i r k) := by
  unfold State.afterArming
  split
  · exact h
  · split
    · exact h.placeStrike _ _ _
    · exact h.startIncoming _ _

theorem evaluateReel (h : SameHalt sc s t) (i : Nat) (r : Reel) : SameHalt sc s (t.evaluateReel sc i r) := by
  have hj := h.judge i r (t.evaluateCase sc)
  unfold State.evaluateReel
  dsimp only
  split
  · next he => rw [he] at hj; exact ((hj.arm _ _ _).setTrimHold _).afterArming _ _ _
  · next he =>
    rw [he] at hj
    split
    · exact hj
    · exact (hj.noteEntry _ _ _ _ _ _).setTrimHold _
  · next he => rw [he] at hj; exact hj.setTrimHold _

theorem evaluate (h : SameHalt sc s t) : SameHalt sc s (t.evaluate sc) := by
  unfold State.evaluate
  dsimp only
  split
  · exact h
  · split
    · split
      · exact (h.noteFault _ _).setTrimHold _
      · exact (h.noteFault _ _).evaluateReel _ _
    · exact (h.noteFault _ _).setTrimHold _

theorem confirm (h : SameHalt sc s t) (b : BankId) (i : Nat) (side : Side) : SameHalt sc s (t.confirm sc b i side) := by
  have hm := ((h.shc (fun c => (c.unconfirm side).modEntry b i (·.become .confirmed)) (by simp [Shc.unconfirm])
    (by simp [Shc.unconfirm])).noteMoved .b0 side (t.shc.get sc).bank0 0).noteMoved .b1 side (t.shc.get sc).bank1 0
  unfold State.confirm
  dsimp only
  split
  · exact hm.evaluate
  · exact hm

/-! ### Chapter 3: cues and changeovers -/

theorem postShow (h : SameHalt sc s t) (n : Nat) : SameHalt sc s (t.postShow sc n) := h.emit _
theorem postHalt (h : SameHalt sc s t) (n : Nat) : SameHalt sc s (t.postHalt sc n) := h.emit _

theorem postPoint (h : SameHalt sc s t) (x : Option LightPoint) : SameHalt sc s (t.postPoint sc x) := by
  unfold State.postPoint
  split
  · exact h.postShow _
  · exact h

theorem changeover (h : SameHalt sc s t) (reopen : State → State)
    (hr : ∀ u, SameHalt sc s u → SameHalt sc s (reopen u)) (how : FiredAs) (o : Nat) (out : Reel) (i : Nat)
    (inc : Reel) : SameHalt sc s (t.changeover reopen sc how o out i inc) := by
  have hc := (h.shc (·.changeover o out i inc) (by simp [Shc.changeover]) (by simp [Shc.changeover])).of_shc
    (u := (((t.modShc sc (·.changeover o out i inc)).unserve (sc.proj out.side)).serve sc i inc).emit
      (.cueWindowClose (sc.proj out.side)))
  exact ((hr _ (hc.postPoint _)).note _).evaluate

theorem standDown (h : SameHalt sc s t) (i : Nat) (r : Reel) : SameHalt sc s (t.standDown sc i r) := by
  unfold State.standDown
  dsimp only
  split
  · exact (h.motorOff _).shc _
  · exact h.shc _

theorem missChangeover (h : SameHalt sc s t) (how : FiredAs) (x : NotReady) (o : Nat) (out : Reel) :
    SameHalt sc s (t.missChangeover sc how x o out) := by
  unfold State.missChangeover
  dsimp only
  split
  · exact (h.standDown _ _).note _
  · exact h.dropStrikeFrame.note _

theorem changeoverCue (h : SameHalt sc s t) (reopen : State → State)
    (hr : ∀ u, SameHalt sc s u → SameHalt sc s (reopen u)) (how : FiredAs) (i : Nat) (r : Reel) :
    SameHalt sc s (t.changeoverCue reopen sc how i r) := by
  have hp := ((h.shc fun c => { c with progress := .changeoverFired }).noteFault (i + 1) ((t.shc.get sc).next i))
  unfold State.changeoverCue
  dsimp only
  split
  · exact hp
  · exact hp
  · exact hp.missChangeover _ _ _ _
  · split
    · split
      · exact hp.changeover reopen hr _ _ _ _ _
      · exact hp.missChangeover _ _ _ _
    · exact hp.missChangeover _ _ _ _

theorem motorCue (h : SameHalt sc s t) (reopen : State → State)
    (hr : ∀ u, SameHalt sc s u → SameHalt sc s (reopen u)) : SameHalt sc s (t.motorCue reopen sc) := by
  have hp := hr _ (h.shc fun c => { c with progress := .motorFired })
  unfold State.motorCue
  dsimp only
  split
  · split
    · exact hp
    · exact hp.startIncoming _ _
  · exact hp

theorem openWindows (n : Nat) (h : SameHalt sc s t) : SameHalt sc s (State.openWindows sc n t) := by
  induction n generalizing t with
  | zero => exact h
  | succ n ih =>
    unfold State.openWindows
    dsimp only
    split
    · exact h
    · split
      · split
        · exact h.emit _
        · exact (h.note _).motorCue _ (fun _ hu => ih hu)
      · split
        · exact h.emit _
        · exact (h.note _).changeoverCue _ (fun _ hu => ih hu) _ _ _
      · exact h

theorem cueFired {p : Proj} (h : SameHalt p.screen s t) (cue : Cue) (how : FiredAs) :
    SameHalt p.screen s (Machine.cueFired p cue how t) := by
  unfold Machine.cueFired
  dsimp only
  split
  · split
    · exact (h.emit _).motorCue _ (fun _ hu => hu.openWindows _)
    · exact (h.emit _).changeoverCue _ (fun _ hu => hu.openWindows _) _ _ _
  · exact h

/-! ### Chapter 2: what the changes of state are made of -/

theorem noteScreen (h : SameHalt sc s t) (old : ScreenState) (cause : ScreenCause) (x : Option HaltReason) :
    SameHalt sc s (t.noteScreen sc old cause x) := h.of_shc

theorem shcExtinguish (h : SameHalt sc s t) (p : Proj) : SameHalt sc s (t.shcExtinguish p) := by
  have hx : (t.shcExtinguish p).shc.get sc = t.shc.get sc := by
    have := (putOut_spec t p (.extinguished .show_)).2.2 (.shc sc) (by simp)
    exact this
  exact ⟨by rw [hx, h.state], by rw [hx, h.halt]⟩

theorem runoutLamp (h : SameHalt sc s t) (p : Proj) : SameHalt sc s (t.runoutLamp p) := by
  unfold State.runoutLamp
  split
  · exact h
  · exact h.shcExtinguish _

theorem resumeIncoming (h : SameHalt sc s t) : SameHalt sc s (t.resumeIncoming sc) := by
  unfold State.resumeIncoming
  dsimp only
  split
  · split
    · exact h.placeStrike _ _ _
    · split
      · exact h
      · exact h.startIncoming _ _
    · exact h
  · exact h

theorem gapArmed (h : SameHalt sc s t) : SameHalt sc s (t.gapArmed sc) := by
  unfold State.gapArmed
  dsimp only
  split
  · exact h
  · split
    · exact ((h.motorOff _).shc _).noteEntry _ _ _ _ _ _
    · exact h

theorem intervalPreStrike (h : SameHalt sc s t) : SameHalt sc s (t.intervalPreStrike sc) := by
  unfold State.intervalPreStrike
  dsimp only
  split
  · split
    · split
      · exact ((h.noteFault _ _).askStrike _).shc _
      · exact h.noteFault _ _
    · exact h.noteFault _ _
  · exact h

theorem judgeStart (h : SameHalt sc s t) (i : Nat) (r : Reel) : SameHalt sc s (t.judgeStart sc i r).2 := by
  unfold State.judgeStart
  dsimp only
  split
  · exact h
  · exact h.judge _ _ _

theorem testStart (h : SameHalt sc s t) : SameHalt sc s (t.testStart sc).2 := by
  unfold State.testStart
  dsimp only
  split
  · next i r _ =>
    have hj := (h.noteFault 0 (t.shc.get sc).first).judge i r .coldStart
    split
    · next he => rw [he] at hj; exact hj
    · next he => rw [he] at hj; exact hj
  · exact h.noteFault _ _

theorem strikeDark (h : SameHalt sc s t) (p : Proj) : SameHalt sc s (t.strikeDark p).2 :=
  h.of_shc (Moves.strikeDark_shows rfl).2

theorem checkReel (h : SameHalt sc s t) (i : Nat) (r : Reel) : SameHalt sc s (t.checkReel sc i r).2 := by
  have hj := h.judgeStart i r
  unfold State.checkReel
  split
  · next he => rw [he] at hj; exact hj
  · next he =>
    rw [he] at hj
    have hd := hj.strikeDark (sc.proj r.side)
    split
    · next hd' => rw [hd'] at hd; exact hd
    · next hd' => rw [hd'] at hd; exact hd

theorem addFurther (s : State) (reason : HaltReason) (hs : (s.shc.get sc).HaltKept) :
    ((s.addFurther sc reason).shc.get sc).HaltKept := by
  unfold State.addFurther
  split
  · exact hs
  · next h hh =>
    split
    · exact hs
    · have : ((s.modShc sc fun c => { c with halt := some { h with further := h.further ++ [reason] } }).shc.get
          sc).HaltKept := by simpa [Shc.HaltKept, hh] using hs
      exact this

/-! ### Chapter 1: the schedule -/

theorem setSchedule (h : SameHalt sc s t) (x : Option Schedule) : SameHalt sc s (t.setSchedule sc x) := h.shc _

theorem missSlot (h : SameHalt sc s t) (x : Schedule) (r : SchedReason) (slot : Nat) :
    SameHalt sc s (t.missSlot sc x r slot) := by
  unfold State.missSlot
  dsimp only
  split
  · exact (h.note _).setSchedule _
  · split
    · exact ((h.note _).setSchedule _).note _
    · exact (h.note _).setSchedule _

theorem slotPreStrike (h : SameHalt sc s t) (x : Schedule) (now : Nat) : SameHalt sc s (t.slotPreStrike sc x now) := by
  unfold State.slotPreStrike
  dsimp only
  split
  · exact h
  · split
    · split
      · split
        · exact ((h.noteFault _ _).setSchedule _).askStrike _
        · exact (h.noteFault _ _).setSchedule _
      · exact h.noteFault _ _
    · exact h.noteFault _ _

theorem clockSet (h : SameHalt sc s t) (old new : Nat) : SameHalt sc s (Machine.clockSet sc old new t) := by
  unfold Machine.clockSet
  split
  · split
    · exact h.skip _ _ _
    · exact h
  · exact h

end SameHalt

end Sys2Proof.Machine
end

section
namespace Sys2Proof.Machine

variable {sc : Screen} {s t u : State}

/-! ## Changes of a screen's state (R43)

Each starts from a screen without a halt record, or makes one. -/

namespace Held

theorem modShc (f : Shc → Shc) (hh : (f (s.shc.get sc)).halt = none) (hs : (f (s.shc.get sc)).state ≠ .halted) :
    ((s.modShc sc f).shc.get sc).HaltKept := by
  simpa using Shc.haltKept_of_none hh hs

/-- R42: a halt makes the record and enters HALTED in one update. -/
theorem haltScreen (s : State) (sc : Screen) (reason : HaltReason) (rp : Option Proj) :
    ((s.haltScreen sc reason rp).shc.get sc).HaltKept := by
  have made (u : State) (r : HaltRecord) :
      ((u.modShc sc fun x => { x with halt := some r, state := .halted, strikeFrame := none }).shc.get sc).HaltKept := by
    simp [Shc.HaltKept]
  exact made _ _

theorem fault (reason : HaltReason) (rp : Option Proj) (x y : Bool) (hs : (s.shc.get sc).HaltKept) :
    ((s.fault sc reason rp x y).shc.get sc).HaltKept := by
  unfold State.fault
  split
  · exact hs
  · split
    · exact SameHalt.addFurther _ _ hs
    · exact hs
  · split
    · exact haltScreen _ _ _ _
    · exact hs

theorem lampStep (side : Side) (hs : (s.shc.get sc).HaltKept) :
    ((s.lampStep (sc.proj side)).shc.get sc).HaltKept := by
  unfold State.lampStep
  split
  · exact ((SameHalt.refl s).motorOn side).kept hs
  · exact hs
  · exact hs
  · split
    · next he =>
      have h := ((SameHalt.refl s).askStrike (sc.proj side)).kept hs
      rw [he] at h
      exact h
    · rw [proj_screen]; exact haltScreen _ _ _ _

theorem bringUp (kind : PrepKind) (i : Nat) (r : Reel) (short : Bool) (cause : ScreenCause)
    (hn : (s.shc.get sc).halt = none) : ((s.bringUp sc kind i r short cause).shc.get sc).HaltKept := by
  unfold State.bringUp
  dsimp only
  have hn' : ((if kind = .resume ∨ ((s.shc.get sc).entry i).state = .armed then s else s.arm sc i r
      short).shc.get sc).halt = none := by
    split
    · exact hn
    · rw [((SameHalt.refl s).arm i r short).halt]; exact hn
  generalize (if kind = .resume ∨ ((s.shc.get sc).entry i).state = .armed then s else s.arm sc i r short) = u at hn' ⊢
  have hp := modShc (s := u) (fun c => { c with current := i, prep := kind, state := .preparing }) hn' (by simp)
  have hb := (((SameHalt.refl _).noteScreen (s.shc.get sc).state cause none).shc (fun c =>
    { c.blackout with schedule := c.schedule.map Schedule.clearMisses }) (fun _ => rfl) (fun _ => rfl)).kept hp
  refine lampStep _ ?_
  split <;> split
  · exact (((SameHalt.refl _).postShow _).emit _).kept hb
  · exact ((SameHalt.refl _).emit _).kept hb
  · exact ((SameHalt.refl _).postShow _).kept hb
  · exact hb

theorem showPicture (i : Nat) (r : Reel) (hn : (s.shc.get sc).halt = none) :
    ((s.showPicture sc i r).shc.get sc).HaltKept := by
  have hp := modShc (s := s) (sc := sc) (fun c => c.pictureOn r.side) (by simpa [Shc.pictureOn] using hn)
    (by simp [Shc.pictureOn])
  unfold State.showPicture
  dsimp only
  split
  · exact ((((SameHalt.refl _).openWindows _).resumeIncoming).noteScreen _ _ _).evaluate.kept hp
  · exact ((((((SameHalt.refl _).shc (fun c => { c.enter i .onScreen with progress := .none })).of_shc
      (u := State.serve _ sc i r)).postPoint
      _).openWindows _).noteScreen _ _ _).evaluate.kept hp

theorem putPictureOn (i : Nat) (r : Reel) (hn : (s.shc.get sc).halt = none) :
    ((s.putPictureOn sc i r).shc.get sc).HaltKept := by
  unfold State.putPictureOn
  dsimp only
  split
  · exact haltScreen _ _ _ _
  · split
    · exact haltScreen _ _ _ _
    · exact showPicture _ _ hn

theorem endPerformance (hn : (s.shc.get sc).halt = none) : ((s.endPerformance sc).shc.get sc).HaltKept :=
  ((((SameHalt.refl _).noteScreen _ _ _).note _).testSwitch _).kept (modShc _ (by simpa [Shc.idle] using hn)
    (by simp [Shc.idle]))

theorem enterInterval (i d q : Nat) (cause : ScreenCause) (hn : (s.shc.get sc).halt = none) :
    ((s.enterInterval sc i d q cause).shc.get sc).HaltKept :=
  ((((SameHalt.refl _).postShow _).evaluate).noteScreen _ _ _).intervalPreStrike.kept (modShc (fun c =>
    { c.enter i .active with current := i, state := .interval, preStrike := false, countdown := d }) (by simpa using hn)
    (by simp))

theorem enterEnding (cause : ScreenCause) (hn : (s.shc.get sc).halt = none) :
    ((s.enterEnding sc cause).shc.get sc).HaltKept :=
  ((SameHalt.refl _).noteScreen _ _ _).kept (modShc (fun c => { c with state := .ending }) hn (by simp))

theorem enterGap (cause : ScreenCause) (hn : (s.shc.get sc).halt = none) :
    ((s.enterGap sc cause).shc.get sc).HaltKept :=
  ((((SameHalt.refl _).postHalt _).gapArmed).evaluate.noteScreen _ _ _).kept (modShc (fun c => { c with state := .gap })
    hn (by simp))

theorem afterPicture (hn : (s.shc.get sc).halt = none) : ((s.afterPicture sc).shc.get sc).HaltKept := by
  have hf := ((SameHalt.refl (sc := sc) s).noteFault ((s.shc.get sc).current + 1)
    ((s.shc.get sc).next (s.shc.get sc).current)).halt.trans hn
  unfold State.afterPicture
  dsimp only
  split
  · exact enterInterval _ _ _ _ hf
  · exact enterEnding _ hf
  · exact enterGap _ hf
  · exact enterGap _ hf

theorem endPicture (i : Nat) (r : Reel) (hn : (s.shc.get sc).halt = none) :
    ((s.endPicture sc i r).shc.get sc).HaltKept := by
  have h := (SameHalt.refl (sc := sc) s).shc fun c => { (c.setDouser r.side false).enter i .runningOut with
    muted := true }
  exact afterPicture (h.halt.trans hn)

theorem endHeld (i : Nat) (r : Reel) (hs : (s.shc.get sc).HaltKept) : ((s.endHeld sc i r).shc.get sc).HaltKept := by
  have h : ((s.modShc sc fun c => { c.enter i .done with halt := c.halt.map fun h =>
    { h with point := .after } }).shc.get
      sc).HaltKept := by
    simpa [Shc.HaltKept] using hs
  exact ((SameHalt.refl _).runoutLamp _).kept h

theorem endInterval (hn : (s.shc.get sc).halt = none) : ((s.endInterval sc).shc.get sc).HaltKept := by
  have h := ((SameHalt.refl (sc := sc) s).shc fun c =>
    { c.enter c.current .done with preStrike := false, countdown := 0 }).noteFault
    ((s.shc.get sc).current + 1) ((s.shc.get sc).next (s.shc.get sc).current)
  have hf := h.halt.trans hn
  unfold State.endInterval
  dsimp only
  split
  · next i r _ =>
    have hj := (h.judgeStart i r).halt.trans hn
    split
    · next he => rw [he] at hj; exact bringUp _ _ _ _ _ hj
    · next he => rw [he] at hj; exact enterGap _ hj
  · exact enterInterval _ _ _ _ hf
  · exact enterGap _ hf
  · split
    · exact enterEnding _ hf
    · exact endPerformance hf

theorem intervalSecond (hs : (s.shc.get sc).HaltKept) : ((s.intervalSecond sc).shc.get sc).HaltKept := by
  have h := (SameHalt.refl (sc := sc) s).shc fun c => { c with countdown := c.countdown - 1 }
  unfold State.intervalSecond
  dsimp only
  split
  · next hi =>
    split
    · exact endInterval (h.halt.trans (hs.none (by simp [hi.1])))
    · exact h.intervalPreStrike.kept hs
  · exact hs

theorem runOut {p : Proj} (i : Nat) (r : Reel) (hs : (s.shc.get p.screen).HaltKept) :
    ((s.runOut p i r).shc.get p.screen).HaltKept := by
  have h1 := (SameHalt.refl (sc := p.screen) s).motorOff p.side
  rw [screen_proj] at h1
  have h2 := ((h1.shc (·.enter i .done)).noteEntry (s.shc.get p.screen).active i r .done false none).runoutLamp p
  unfold State.runOut
  dsimp only
  split
  · next he =>
    split
    · exact endPerformance ((h2.kept hs).none (by simp [he]))
    · exact h2.kept hs
  · exact h2.evaluate.kept hs
  · exact h2.evaluate.kept hs
  · exact h2.evaluate.kept hs
  · exact h2.kept hs

/-! ### The events of a screen -/

section Events

variable {p : Proj}

theorem countAdvanced (hs : (s.shc.get p.screen).HaltKept) :
    ((Machine.countAdvanced p s).shc.get p.screen).HaltKept := by
  have hr := SameHalt.refl (sc := p.screen) s
  unfold Machine.countAdvanced
  dsimp only
  split
  · next hp =>
    have hn := hs.none (by simp [Shc.state_of_preparing hp])
    split
    · exact putPictureOn _ _ hn
    · split
      · exact (hr.postPoint _).kept hs
      · exact hs
  · split
    · split
      · split
        · exact (hr.postPoint _).makeStrike.kept hs
        · exact (hr.postPoint _).kept hs
      · exact (hr.postPoint _).kept hs
    · exact hs

theorem atSpeedSeen (hs : (s.shc.get p.screen).HaltKept) : ((Machine.atSpeedSeen p s).shc.get p.screen).HaltKept := by
  unfold Machine.atSpeedSeen
  dsimp only
  split
  · next hp =>
    have hn := hs.none (by simp [Shc.state_of_preparing hp])
    split
    · exact putPictureOn _ _ hn
    · exact hs
  · exact hs

theorem pictureEnded (hs : (s.shc.get p.screen).HaltKept) :
    ((Machine.pictureEnded p s).shc.get p.screen).HaltKept := by
  unfold Machine.pictureEnded
  dsimp only
  split
  · exact hs
  · split
    · next _ he => exact endPicture _ _ (hs.none (by simp [he]))
    · next he _ => exact endPicture _ _ (hs.none (by simp [he]))
    · exact endHeld _ _ hs
    · exact hs

theorem runoutSeen (hs : (s.shc.get p.screen).HaltKept) : ((Machine.runoutSeen p s).shc.get p.screen).HaltKept := by
  unfold Machine.runoutSeen
  split
  · exact runOut _ _ hs
  · exact hs

theorem lampChanged (new : LampState) (cause : LampCause) (hs : (s.shc.get p.screen).HaltKept) :
    ((Machine.lampChanged p new cause s).shc.get p.screen).HaltKept := by
  have he := (SameHalt.refl (sc := p.screen) s).evaluate.kept hs
  have hm := (SameHalt.refl (sc := p.screen) s).motorOn p.side |>.kept hs
  rw [screen_proj] at hm
  unfold Machine.lampChanged
  dsimp only
  split
  · split
    · split
      · exact SameHalt.addFurther _ _ hs
      · exact hs
    · exact hs
  · split
    · split
      · exact haltScreen _ _ _ _
      · split
        · exact hm
        · exact hs
    · exact hs
  · split
    · split
      · exact haltScreen _ _ _ _
      · exact he
    · exact he
  · exact he
  · exact he
  · exact hs
  · exact hs

end Events

theorem dealWait (x : Schedule) (w now : Nat) (hs : (s.shc.get sc).HaltKept) :
    ((s.dealWait sc x w now).shc.get sc).HaltKept := by
  have hr := SameHalt.refl (sc := sc) s
  have ht := hr.testStart
  unfold State.dealWait
  dsimp only
  split
  · exact (hr.setSchedule _).kept hs
  · next hi =>
    have hn := hs.none (by simp [not_not.1 hi])
    split
    · next he => rw [he] at ht; exact bringUp _ _ _ _ _ ((ht.setSchedule _).halt.trans hn)
    · next he =>
      rw [he] at ht
      split
      · exact (ht.missSlot _ _ _).kept hs
      · exact ht.kept hs

theorem dealSlot (x : Schedule) (now : Nat) (hs : (s.shc.get sc).HaltKept) :
    ((s.dealSlot sc x now).shc.get sc).HaltKept := by
  have hr := SameHalt.refl (sc := sc) s
  have ht := hr.testStart
  unfold State.dealSlot
  dsimp only
  split
  · exact (hr.missSlot _ _ _).kept hs
  · next hi =>
    have hn := hs.none (by simp [not_not.1 hi])
    split
    · next he => rw [he] at ht; exact bringUp _ _ _ _ _ ((ht.setSchedule _).halt.trans hn)
    · next he =>
      rw [he] at ht
      split
      · exact (ht.missSlot _ _ _).kept hs
      · exact (ht.setSchedule _).kept hs

theorem boothSecond (now : Nat) (hs : (s.shc.get sc).HaltKept) :
    ((Machine.boothSecond sc now s).shc.get sc).HaltKept := by
  have h1 := ((SameHalt.refl (sc := sc) _).testSwitch now).kept (intervalSecond hs)
  have h2 : ((((s.intervalSecond sc).testSwitch sc now).waitSecond sc now).shc.get sc).HaltKept := by
    unfold State.waitSecond
    split
    · split
      · exact dealWait _ _ _ h1
      · exact h1
    · exact h1
  have h3 : (((((s.intervalSecond sc).testSwitch sc now).waitSecond sc now).slotSecond sc now).shc.get sc).HaltKept := by
    unfold State.slotSecond
    split
    · split
      · exact dealSlot _ _ h2
      · exact h2
    · exact h2
  unfold Machine.boothSecond State.preStrikeSecond
  split
  · exact ((SameHalt.refl _).slotPreStrike _ _).kept h3
  · exact h3

/-! ### The requests of a performance -/

variable {tag : Byte}

theorem startScreen (hs : (s.shc.get sc).HaltKept) : ((Machine.startScreen tag sc s).shc.get sc).HaltKept := by
  have ht := (SameHalt.refl (sc := sc) s).testStart
  unfold Machine.startScreen
  split
  · exact hs
  · next hi =>
    have hn := hs.none (by simp [not_not.1 hi])
    repeat (split; · exact hs)
    split
    · next he => rw [he] at ht; exact ht.kept hs
    · next r _ _ he =>
      rw [he] at ht
      have hd := ht.strikeDark (sc.proj r.side)
      split
      · next hd' => rw [hd'] at hd; exact hd.kept hs
      · next hd' => rw [hd'] at hd; exact bringUp (s := _) _ _ _ _ _ (hd.halt.trans hn)

theorem leaveHalt (s : State) (sc : Screen) : ((s.leaveHalt sc).shc.get sc).halt = none := by
  simp [State.leaveHalt]

theorem resumePicture (hs : (s.shc.get sc).HaltKept) : ((Machine.resumePicture tag sc s).shc.get sc).HaltKept := by
  have hr := SameHalt.refl (sc := sc) s
  unfold Machine.resumePicture
  split
  · exact hs
  · next i r _ =>
    dsimp only
    repeat (split; · exact hs)
    split
    · exact bringUp (s := State.leaveHalt _ sc) _ _ _ _ _ (leaveHalt _ _)
    · next he =>
      split at he
      · obtain ⟨-, rfl⟩ := Prod.mk.inj he; exact hs
      · have ha := (hr.askStrike (sc.proj r.side)).kept hs
        rw [he] at ha
        exact ha

theorem resumeReel (i : Nat) (hs : (s.shc.get sc).HaltKept) : ((Machine.resumeReel tag sc i s).shc.get sc).HaltKept := by
  unfold Machine.resumeReel
  split
  · next r _ =>
    have hc := (SameHalt.refl (sc := sc) s).checkReel i r
    split
    · next he => rw [he] at hc; exact hc.kept hs
    · exact bringUp (s := State.leaveHalt _ sc) _ _ _ _ _ (leaveHalt _ _)
  · exact hs

theorem resumeAfter (i : Nat) (hs : (s.shc.get sc).HaltKept) :
    ((Machine.resumeAfter tag sc i s).shc.get sc).HaltKept := by
  have hf := (SameHalt.refl (sc := sc) s).noteFault (i + 1) ((s.shc.get sc).next i)
  unfold Machine.resumeAfter
  dsimp only
  split
  · exact hf.kept hs
  · exact enterInterval (s := State.leaveHalt _ sc) _ _ _ _ (leaveHalt _ _)
  · exact endPerformance (s := (State.leaveHalt _ sc).postShow sc _) (leaveHalt _ _)
  · next j r _ =>
    have hc := hf.checkReel j r
    split
    · next he => rw [he] at hc; exact hc.kept hs
    · exact bringUp (s := State.leaveHalt _ sc) _ _ _ _ _ (leaveHalt _ _)

theorem resumeGap (hn : (s.shc.get sc).halt = none) (hs : (s.shc.get sc).HaltKept) :
    ((Machine.resumeGap tag sc s).shc.get sc).HaltKept := by
  have hf := (SameHalt.refl (sc := sc) s).noteFault ((s.shc.get sc).current + 1)
    ((s.shc.get sc).next (s.shc.get sc).current)
  unfold Machine.resumeGap
  split
  · exact hs
  · dsimp only
    split
    · next i r _ =>
      have hc := hf.checkReel i r
      split
      · next he => rw [he] at hc; exact hc.kept hs
      · next he => rw [he] at hc; exact bringUp (s := _) _ _ _ _ _ (hc.halt.trans hn)
    · exact hf.kept hs

theorem resumeScreen (hs : (s.shc.get sc).HaltKept) : ((Machine.resumeScreen tag sc s).shc.get sc).HaltKept := by
  unfold Machine.resumeScreen
  dsimp only
  split
  · exact hs
  · split
    · exact hs
    · exact hs
    · exact hs
    · exact hs
    · next he =>
      split
      · exact hs
      · unfold resumeInterval
        split
        · exact hs
        · exact endInterval (s := s) (hs.none (by simp [he]))
    · next he => exact resumeGap (hs.none (by simp [he])) hs
    · unfold resumeHalted
      split
      · exact hs
      · split
        · exact hs
        · split
          · exact resumePicture hs
          · exact resumeReel _ hs
          · exact resumeAfter _ hs

theorem abort (s : State) (sc : Screen) : ((s.abort sc).shc.get sc).HaltKept := by
  have made (u : State) : ((u.modShc sc Shc.abort).shc.get sc).HaltKept :=
    modShc _ (by simp [Shc.abort]) (by simp [Shc.abort, Shc.idle])
  exact ((SameHalt.refl _).testSwitch _).kept (made _)

/-! ### The requests of a screen -/

section Requests

variable {screen : Byte}

theorem writeEntry (hs : screenOf screen = some sc) (index kind : Byte) (area : List Byte)
    (h : (s.shc.get sc).HaltKept) : ((Machine.writeEntry tag screen index kind area s).shc.get sc).HaltKept := by
  unfold Machine.writeEntry
  rw [hs]
  dsimp only
  split
  · next he _ =>
    obtain rfl := Option.some.inj he
    split
    · exact h
    · split
      · exact h
      · exact (((SameHalt.refl s).shc _ (fun _ => Shc.modEntry_state _ _ _ _) fun _ =>
          Shc.modEntry_halt _ _ _ _).noteLost
          _ _ _).kept h
  · exact h

theorem clearStaged (hs : screenOf screen = some sc) (h : (s.shc.get sc).HaltKept) :
    ((Machine.clearStaged tag screen s).shc.get sc).HaltKept := by
  unfold Machine.clearStaged
  rw [hs]
  dsimp only
  split
  · exact h
  · exact (((SameHalt.refl s).shc _ (fun _ => Shc.setBank_state _ _ _) fun _ => Shc.setBank_halt _ _ _).noteLostAll
      _ _ _).kept h

theorem switchProgramme (hs : screenOf screen = some sc) (t0 tc : Word) (np : Half) (h : (s.shc.get sc).HaltKept) :
    ((Machine.switchProgramme tag screen t0 tc np s).shc.get sc).HaltKept := by
  unfold Machine.switchProgramme
  rw [hs]
  dsimp only
  repeat (split; · exact h)
  exact ((SameHalt.refl s).shc (fun c => { c with switch := some _ }) (fun _ => rfl) fun _ => rfl).kept h

theorem cancelSwitch (hs : screenOf screen = some sc) (h : (s.shc.get sc).HaltKept) :
    ((Machine.cancelSwitch tag screen s).shc.get sc).HaltKept := by
  unfold Machine.cancelSwitch
  rw [hs]
  dsimp only
  split
  · exact h
  · exact ((SameHalt.refl s).shc fun c => { c with switch := none }).kept h

theorem confirmRequest (hs : screenOf screen = some sc) (bank index confirm : Byte) (h : (s.shc.get sc).HaltKept) :
    ((Machine.confirmRequest tag screen bank index confirm s).shc.get sc).HaltKept := by
  have hr := SameHalt.refl (sc := sc) s
  unfold Machine.confirmRequest
  rw [hs]
  split
  · next he _ _ =>
    obtain rfl := Option.some.inj he
    split
    · split
      · unfold confirmReelOf
        dsimp only
        repeat (split; · exact h)
        exact (hr.confirm _ _ _).kept h
      · split
        · unfold withdrawReel
          dsimp only
          split
          · exact (hr.shc _ (fun _ => Shc.modEntry_state _ _ _ _) fun _ => Shc.modEntry_halt _ _ _ _).kept h
          · split
            · exact h
            · exact (hr.shc _ (fun _ => Shc.modEntry_state _ _ _ _) fun _ => Shc.modEntry_halt _ _ _
                _).dropStrikeFrame.kept h
          · exact h
          · exact h
          · exact h
        · exact h
    · exact h
  · exact h

theorem start (hs : screenOf screen = some sc) (h : (s.shc.get sc).HaltKept) :
    ((Machine.start tag screen s).shc.get sc).HaltKept := by
  unfold Machine.start
  rw [hs]
  exact startScreen h

theorem resume (hs : screenOf screen = some sc) (h : (s.shc.get sc).HaltKept) :
    ((Machine.resume tag screen s).shc.get sc).HaltKept := by
  unfold Machine.resume
  rw [hs]
  exact resumeScreen h

theorem abortRequest (hs : screenOf screen = some sc) (h : (s.shc.get sc).HaltKept) :
    ((Machine.abort tag screen s).shc.get sc).HaltKept := by
  unfold Machine.abort
  rw [hs]
  dsimp only
  split
  · exact h
  · exact abort _ _

theorem changeNow (hs : screenOf screen = some sc) (h : (s.shc.get sc).HaltKept) :
    ((Machine.changeNow tag screen s).shc.get sc).HaltKept := by
  unfold Machine.changeNow
  rw [hs]
  dsimp only
  split
  · exact h
  · split
    · split
      · exact ((SameHalt.refl s).changeover _ (fun _ hu => hu.openWindows _) _ _ _ _ _).kept h
      · exact h
    · exact h

end Requests

end Held

end Sys2Proof.Machine
end

section
namespace Sys2Proof.Machine

/-! ## Events of one lamp -/

/-- From `s` to `t` one lamp's record, the events raised and the notices have changed, and nothing else. -/
def OnlyLamp (p : Proj) (s t : State) : Prop := KeepsAllBut s t [.events, .cnl, .alc p] ∧ Noted s.cnl t.cnl

namespace OnlyLamp

variable {s t u : State} {p : Proj}

theorem refl (p : Proj) (s : State) : OnlyLamp p s s := ⟨KeepsAllBut.refl _ _, Noted.refl _⟩

theorem trans (h : OnlyLamp p s t) (k : OnlyLamp p t u) : OnlyLamp p s u := ⟨h.1.trans k.1, h.2.trans k.2⟩

theorem modAlc (s : State) (p : Proj) (f : Alc → Alc) : OnlyLamp p s (s.modAlc p f) :=
  ⟨(keeps_modAlc _ _ _).mono (by simp), Noted.refl _⟩

theorem note (p : Proj) (s : State) (b : NoticeBody) : OnlyLamp p s (s.note b) :=
  ⟨(keeps_note _ _).mono (by simp), [_], rfl⟩

theorem emit (p : Proj) (s : State) (e : Instr) : OnlyLamp p s (s.emit e) :=
  ⟨(keeps_emit _ _).mono (by simp), Noted.refl _⟩

theorem lampChange (s : State) (p : Proj) (new : LampState) (cause : LampCause) :
    OnlyLamp p s (s.lampChange p new cause) :=
  ((modAlc _ _ _).trans (emit _ _ _)).trans (note _ _ _)

theorem beginStrike (s : State) (p : Proj) (cause : LampCause) : OnlyLamp p s (s.beginStrike p cause) :=
  ((modAlc _ _ _).trans (lampChange _ _ _ _)).trans (modAlc _ _ _)

end OnlyLamp

/-! ## What every command keeps

`Sound l s t`: from `s` to `t` the queue of commands is not touched, the Console Link's queues stay within their
places, booth safety stays safe, every transport and lamp record stays legal, every screen keeps its halt record and its
banks as R43 and R1 say, and every input outside `l` keeps its samples and its accepted level. It composes,
so that a command's part is read off the operations it is made of. -/

structure Sound (l : List SwitchInput) (s t : State) : Prop where
  pending : t.pending = s.pending
  cnl : s.cnl.Bounded → t.cnl.Bounded
  bsu : s.bsu.Safe → t.bsu.Safe
  trm : ∀ p, (s.trm.get p).Legal → (t.trm.get p).Legal
  alc : ∀ p, (s.alc.get p).Legal → (t.alc.get p).Legal
  screens : ∀ sc, (s.shc.get sc).Held → (t.shc.get sc).Held
  inputs : ∀ i, i ∉ l → t.samples i = s.samples i ∧ t.inputLevel i = s.inputLevel i

/-- A part that no condition of `Sound` reads. -/
def Part.free : Part → Bool
  | .events | .pins | .bck | .mpt | .hlc _ => true
  | _ => false

namespace Sound

variable {l : List SwitchInput} {s t u : State} {p : Proj}

theorem refl (s : State) : Sound l s s :=
  ⟨rfl, id, id, fun _ => id, fun _ => id, fun _ => id, fun _ _ => ⟨rfl, rfl⟩⟩

theorem trans (h : Sound l s t) (k : Sound l t u) : Sound l s u where
  pending := k.pending.trans h.pending
  cnl := k.cnl ∘ h.cnl
  bsu := k.bsu ∘ h.bsu
  trm p := k.trm p ∘ h.trm p
  alc p := k.alc p ∘ h.alc p
  screens sc := k.screens sc ∘ h.screens sc
  inputs i hi := ⟨(k.inputs i hi).1.trans (h.inputs i hi).1, (k.inputs i hi).2.trans (h.inputs i hi).2⟩

theorem mono {m : List SwitchInput} (h : Sound l s t) (hm : ∀ i ∈ l, i ∈ m) : Sound m s t :=
  { h with inputs := fun i hi => h.inputs i fun hl => hi (hm i hl) }

/-- With its inputs' levels and samples read from the records that hold them. -/
theorem inputs_of_records (ht : t.trm = s.trm) (hb : t.bsu = s.bsu) (i : SwitchInput) :
    t.samples i = s.samples i ∧ t.inputLevel i = s.inputLevel i := by
  cases i <;> simp [State.samples, State.inputLevel, ht, hb]

theorem of_frame {m : List Part} (h : KeepsAllBut s t m) (hm : ∀ x ∈ m, x.free = true) : Sound l s t := by
  have kept (x : Part) (hx : x.free = false) : Same s t x := h x fun hl => by simp [hm x hl] at hx
  have htrm (p : Proj) : t.trm.get p = s.trm.get p := kept (.trm p) rfl
  have halc (p : Proj) : t.alc.get p = s.alc.get p := kept (.alc p) rfl
  have hshc (sc : Screen) : t.shc.get sc = s.shc.get sc := kept (.shc sc) rfl
  have hcnl : t.cnl = s.cnl := kept .cnl rfl
  have hbsu : t.bsu = s.bsu := kept .bsu rfl
  refine ⟨kept .pending rfl, fun x => hcnl ▸ x, fun x => hbsu ▸ x, fun p x => htrm p ▸ x, fun p x => halc p ▸ x,
    fun sc x => hshc sc ▸ x, ?_⟩
  intro i _
  cases i <;> simp [State.samples, State.inputLevel, htrm, hbsu]

/-! ### One record at a time -/

theorem modCnl {f : Cnl → Cnl} (hf : s.cnl.Bounded → (f s.cnl).Bounded) : Sound l s (s.modCnl f) :=
  ⟨rfl, hf, id, fun _ => id, fun _ => id, fun _ => id, fun _ _ => inputs_of_records rfl rfl _⟩

theorem modAlc {f : Alc → Alc} (hf : (s.alc.get p).Legal → (f (s.alc.get p)).Legal) : Sound l s (s.modAlc p f) where
  pending := rfl
  cnl := id
  bsu := id
  trm _ := id
  alc q h := by
    by_cases hq : q = p
    · subst hq; simpa using hf h
    · simpa [hq] using h
  screens _ := id
  inputs _ _ := inputs_of_records rfl rfl _

theorem modShc {sc : Screen} {f : Shc → Shc} (hf : (s.shc.get sc).Held → (f (s.shc.get sc)).Held) :
    Sound l s (s.modShc sc f) where
  pending := rfl
  cnl := id
  bsu := id
  trm _ := id
  alc _ := id
  screens x h := by
    by_cases hx : x = sc
    · subst hx; simpa using hf h
    · simpa [hx] using h
  inputs _ _ := inputs_of_records rfl rfl _

/-- A change of a transport record, with what it does to the accepted levels of its two inputs left to `l`. -/
theorem modTrm {f : Trm → Trm} (hf : (s.trm.get p).Legal → (f (s.trm.get p)).Legal)
    (hc : SwitchInput.cueSensor p ∈ l ∨ (f (s.trm.get p)).cueSamples = (s.trm.get p).cueSamples ∧
      (f (s.trm.get p)).cueMark = (s.trm.get p).cueMark)
    (hl : SwitchInput.loopSwitch p ∈ l ∨ (f (s.trm.get p)).loopSamples = (s.trm.get p).loopSamples ∧
      (f (s.trm.get p)).loopClosed = (s.trm.get p).loopClosed) : Sound l s (s.modTrm p f) where
  pending := rfl
  cnl := id
  bsu := id
  trm q h := by
    by_cases hq : q = p
    · subst hq; simpa using hf h
    · simpa [hq] using h
  alc _ := id
  screens _ := id
  inputs i hi := by
    cases i with
    | cueSensor q =>
      by_cases hq : q = p
      · subst hq; simpa [State.samples, State.inputLevel] using hc.resolve_left hi
      · simp [State.samples, State.inputLevel, hq]
    | loopSwitch q =>
      by_cases hq : q = p
      · subst hq; simpa [State.samples, State.inputLevel] using hl.resolve_left hi
      · simp [State.samples, State.inputLevel, hq]
    | _ => exact ⟨rfl, rfl⟩

/-- A change of a transport record that leaves its inputs. -/
theorem trmOnly {f : Trm → Trm} (hf : (s.trm.get p).Legal → (f (s.trm.get p)).Legal)
    (hc : (f (s.trm.get p)).cueSamples = (s.trm.get p).cueSamples := by rfl)
    (hm : (f (s.trm.get p)).cueMark = (s.trm.get p).cueMark := by rfl)
    (hl : (f (s.trm.get p)).loopSamples = (s.trm.get p).loopSamples := by rfl)
    (hk : (f (s.trm.get p)).loopClosed = (s.trm.get p).loopClosed := by rfl) : Sound l s (s.modTrm p f) :=
  modTrm hf (.inr ⟨hc, hm⟩) (.inr ⟨hl, hk⟩)

/-- A change of booth safety's record, with what it does to its inputs left to `l`. -/
theorem modBsu {f : Bsu → Bsu} (hf : s.bsu.Safe → (f s.bsu).Safe)
    (hu : ∀ p, SwitchInput.shutterUp p ∉ l →
      ((f s.bsu).shutters.get p).upSamples = (s.bsu.shutters.get p).upSamples ∧
      ((f s.bsu).shutters.get p).up = (s.bsu.shutters.get p).up)
    (hi : SwitchInput.fire ∉ l →
      (f s.bsu).fireSamples = s.bsu.fireSamples ∧ (f s.bsu).fireInput = s.bsu.fireInput)
    (he : SwitchInput.estop ∉ l →
      (f s.bsu).estopSamples = s.bsu.estopSamples ∧ (f s.bsu).estopInput = s.bsu.estopInput)
    (hx : SwitchInput.exhaust ∉ l →
      (f s.bsu).exhaustSamples = s.bsu.exhaustSamples ∧ (f s.bsu).exhaustInput = s.bsu.exhaustInput) :
    Sound l s (s.modBsu f) where
  pending := rfl
  cnl := id
  bsu := hf
  trm _ := id
  alc _ := id
  screens _ := id
  inputs i h := by
    cases i with
    | shutterUp p => exact hu p h
    | fire => exact hi h
    | estop => exact he h
    | exhaust => exact hx h
    | _ => exact ⟨rfl, rfl⟩

/-- A change of booth safety's record that leaves its shutters and its inputs. -/
theorem bsuOnly {f : Bsu → Bsu} (hf : s.bsu.Safe → (f s.bsu).Safe)
    (hu : (f s.bsu).shutters = s.bsu.shutters := by rfl)
    (hi : (f s.bsu).fireSamples = s.bsu.fireSamples ∧ (f s.bsu).fireInput = s.bsu.fireInput := by exact ⟨rfl, rfl⟩)
    (he : (f s.bsu).estopSamples = s.bsu.estopSamples ∧ (f s.bsu).estopInput = s.bsu.estopInput := by
      exact ⟨rfl, rfl⟩)
    (hx : (f s.bsu).exhaustSamples = s.bsu.exhaustSamples ∧ (f s.bsu).exhaustInput = s.bsu.exhaustInput := by
      exact ⟨rfl, rfl⟩) : Sound l s (s.modBsu f) :=
  modBsu hf (fun p _ => by rw [hu]; exact ⟨rfl, rfl⟩) (fun _ => hi) (fun _ => he) (fun _ => hx)

/-! ### The shared operations -/

theorem modBck (s : State) (f : Bck → Bck) : Sound l s (s.modBck f) := of_frame (keeps_modBck _ _) (by simp [Part.free])
theorem modMpt (s : State) (f : Mpt → Mpt) : Sound l s (s.modMpt f) := of_frame (keeps_modMpt _ _) (by simp [Part.free])
theorem modPins (s : State) (f : Pins → Pins) : Sound l s (s.modPins f) :=
  of_frame (keeps_modPins _ _) (by simp [Part.free])
theorem modHlc (s : State) (sc : Screen) (f : Hlc → Hlc) : Sound l s (s.modHlc sc f) :=
  of_frame (keeps_modHlc _ _ _) (by simp [Part.free])
theorem emit (s : State) (e : Instr) : Sound l s (s.emit e) := of_frame (keeps_emit _ _) (by simp [Part.free])
theorem emitAll (s : State) (es : List Instr) : Sound l s (s.emitAll es) :=
  of_frame (keeps_emitAll _ _) (by simp [Part.free])
theorem taken (s : State) (e : Instr) : Sound l s (s.taken e) := of_frame (keeps_taken _ _) (by simp [Part.free])
theorem note (s : State) (b : NoticeBody) : Sound l s (s.note b) := modCnl fun h => raise_bounded h _
theorem reply (s : State) (kind tag : Byte) (r : Result) (adj : Option Bool) (d : List Byte) :
    Sound l s (s.reply kind tag r adj d) := modCnl fun h => fill_bounded h _
theorem answer (s : State) (kind tag : Byte) (r : Result) : Sound l s (s.answer kind tag r) := reply _ _ _ _ _ _
theorem answerSet (s : State) (kind tag : Byte) (r : Result) (adj : Bool) : Sound l s (s.answerSet kind tag r adj) :=
  reply _ _ _ _ _ _
theorem noteSafety (s : State) (e : SafetyEvent) (x : Option FireReason) : Sound l s (s.noteSafety e x) := note _ _

theorem lampChange (s : State) (p : Proj) (new : LampState) (cause : LampCause)
    (hf : (s.alc.get p).Legal → ((s.alc.get p).enter new cause).Legal) : Sound l s (s.lampChange p new cause) :=
  ((modAlc hf).trans (emit _ _)).trans (note _ _)

theorem putOut (s : State) (p : Proj) (cause : LampCause) : Sound l s (s.putOut p cause) := by
  unfold State.putOut
  split
  · exact refl _
  · exact lampChange _ _ _ _ fun h => h.enter_unlit rfl _

theorem of_lamp (h : OnlyLamp p s t) (hf : (s.alc.get p).Legal → (t.alc.get p).Legal) : Sound l s t := by
  obtain ⟨hkeep, hnote⟩ := h
  have htrm (q : Proj) : t.trm.get q = s.trm.get q := hkeep (.trm q) (by simp)
  have hshc (sc : Screen) : t.shc.get sc = s.shc.get sc := hkeep (.shc sc) (by simp)
  have hbsu : t.bsu = s.bsu := hkeep .bsu (by simp)
  refine ⟨hkeep .pending (by simp), hnote.bounded, fun x => hbsu ▸ x, fun q x => htrm q ▸ x, ?_, fun sc x =>
    hshc sc ▸ x,
    ?_⟩
  · intro q x
    by_cases hq : q = p
    · subst hq; exact hf x
    · have hsame : t.alc.get q = s.alc.get q := hkeep (.alc q) (by simp [hq])
      exact hsame ▸ x
  · intro i _
    cases i <;> simp [State.samples, State.inputLevel, htrm, hbsu]

theorem beginStrike (s : State) (p : Proj) (cause : LampCause) (hr : (s.alc.get p).remaining ≠ 0) :
    Sound l s (s.beginStrike p cause) :=
  of_lamp (.beginStrike _ _ _) fun h => by
    rw [(beginStrike_spec s p cause).1]
    exact h.strike (Alc.Legal.remaining_pos hr) cause

theorem strikeRefusal_none (h : s.strikeRefusal p = none) :
    (s.alc.get p).state.lit = false ∧ (s.alc.get p).remaining ≠ 0 ∧ s.bsu.proven = true ∧ s.bsu.fire = none := by
  unfold State.strikeRefusal at h
  simp only at h
  split_ifs at h with hlit hrem hex hfire
  exact ⟨by simpa using hlit, hrem, by simpa using hex, by simpa [State.fireLatched] using hfire⟩

theorem askStrike (s : State) (p : Proj) : Sound l s (s.askStrike p).2 := by
  obtain ⟨hn, he⟩ | ⟨r, -, he⟩ := askStrike_spec s p <;> rw [he]
  · exact beginStrike _ _ _ (strikeRefusal_none hn).2.1
  · exact refl _

theorem changeRank (s : State) (sc : Screen) (r : Rank) (x : Option LightRequest) : Sound l s (s.changeRank sc r x) := by
  unfold State.changeRank
  dsimp only
  split
  · exact modHlc _ _ _
  · exact (modHlc _ _ _).trans (note _ _)

/-! ### Events and requests of a screen -/

theorem of_moves {sc : Screen} (h : Moves sc s t)
    (hk : (s.shc.get sc).HaltKept → (t.shc.get sc).HaltKept) : Sound l s t where
  pending := h.keeps .pending (by simp [screenParts])
  cnl := h.bounded
  bsu x := by
    have hb : t.bsu = s.bsu := h.keeps .bsu (by simp [screenParts])
    exact hb ▸ x
  trm p := h.trm_inv (fun _ lp _ x => x.armFor lp) p
  alc p := h.alc_inv (fun _ _ hr x => x.strike (Alc.Legal.remaining_pos hr) _) (fun _ x => x.enter_unlit rfl _)
    (fun _ v x => x.service v) p
  screens x hx := by
    obtain ⟨hhalt, hbanks⟩ := hx
    by_cases hsc : x = sc
    · subst hsc; exact ⟨hk hhalt, h.kept.2 hbanks⟩
    · have hsame : t.shc.get x = s.shc.get x := h.keeps (.shc x) (by simp [screenParts, hsc])
      exact hsame ▸ ⟨hhalt, hbanks⟩
  inputs i _ := by
    have hb : t.bsu = s.bsu := h.keeps .bsu (by simp [screenParts])
    cases i with
    | cueSensor p =>
      exact h.trm_inv (P := fun x => x.cueSamples = (s.trm.get p).cueSamples ∧ x.cueMark = (s.trm.get p).cueMark)
        (fun _ _ _ x => x) p ⟨rfl, rfl⟩
    | loopSwitch p =>
      exact h.trm_inv (P := fun x => x.loopSamples = (s.trm.get p).loopSamples ∧ x.loopClosed =
        (s.trm.get p).loopClosed)
        (fun _ _ _ x => x) p ⟨rfl, rfl⟩
    | _ => simp [State.samples, State.inputLevel, hb]

theorem of_answers {sc : Screen} (h : Answers sc s t)
    (hk : (s.shc.get sc).HaltKept → (t.shc.get sc).HaltKept) : Sound l s t := by
  obtain ⟨u, k, tag, r, adj, d, hm, rfl⟩ := h
  exact (of_moves hm hk).trans (reply _ _ _ _ _ _)

end Sound

/-- From `s` to `t` the input `i` has its level accepted as `v`, its samples standing as they stood. -/
structure Accepts (i : SwitchInput) (v : Bool) (s t : State) : Prop where
  sound : Sound [i] s t
  samples : t.samples i = s.samples i
  level : t.inputLevel i = some v

theorem Accepts.andThen {i : SwitchInput} {v : Bool} {s t u : State} (h : Accepts i v s t) (k : Sound [] t u) :
    Accepts i v s u where
  sound := h.sound.trans (k.mono (by simp))
  samples := (k.inputs i (by simp)).1.trans h.samples
  level := (k.inputs i (by simp)).2.trans h.level

end Sys2Proof.Machine
end

section
namespace Sys2Proof.Machine

variable {l : List SwitchInput} {s t : State} {p : Proj}

namespace Sound

/-! ### Transports (chapter 4) -/

theorem stopMotor (s : State) (p : Proj) : Sound l s (s.stopMotor p) := by
  refine trmOnly (fun h => h.stop) ?_ ?_ ?_ ?_ <;> (unfold Trm.stop; split <;> rfl)

theorem takeMotorOn (s : State) (p : Proj) : Sound l s (s.takeMotorOn p) := by
  have hstart : Sound l s (s.modTrm p Trm.startMotor) := trmOnly fun h => h.startMotor
  unfold State.takeMotorOn
  dsimp only
  split
  · split
    · exact hstart
    · exact hstart.trans (emit _ _)
  · exact refl _

theorem motorOnCommand (s : State) (p : Proj) : Sound l s (Machine.motorOnCommand p s) := by
  unfold Machine.motorOnCommand State.refuseMotorOn
  split
  · exact (modShc fun h => h.setMotor _ _).trans (emit _ _)
  · exact takeMotorOn _ _

theorem setWindow (s : State) (p : Proj) (w : Option CueWindow) :
    Sound l s (s.modTrm p fun t => { t with window := w }) := trmOnly fun h => h.window w

theorem fireWindow (s : State) (p : Proj) (w : CueWindow) (how : FiredAs) : Sound l s (s.fireWindow p w how) :=
  ((setWindow _ _ _).trans (emit _ _)).trans (note _ _)

theorem openWindow (s : State) (p : Proj) (w : CueWindow) : Sound l s (s.openWindow p w) := by
  unfold State.openWindow
  dsimp only
  split
  · exact (setWindow _ _ _).trans (fireWindow _ _ _ _)
  · exact setWindow _ _ _

theorem measure (s : State) (p : Proj) (time : Nat) : Sound l s (s.measure p time) := by
  unfold State.measure
  dsimp only
  split
  · exact trmOnly fun h => h.timed _ _
  · next u _ =>
    have htimed : Sound l s (s.modTrm p fun t =>
        { t with lastPulse := some time, lastPeriod := some (min 65535 (time - u)) }) :=
      trmOnly fun h => h.timed _ _
    split
    · next hrun =>
      split
      · next hgood => exact htimed.trans (trmOnly fun h => h.setRun (Nat.le_of_lt hgood))
      · exact (htimed.trans (trmOnly fun h => h.reachSpeed (by simpa using hrun))).trans (emit _ _)
    · exact htimed

theorem restartStall (s : State) (p : Proj) : Sound l s (s.modTrm p Trm.restartStall) := by
  refine trmOnly (fun h => h.restartStall) ?_ ?_ ?_ ?_ <;> (unfold Trm.restartStall; split <;> rfl)

theorem windowPulse (s : State) (p : Proj) : Sound l s (s.windowPulse p) := by
  unfold State.windowPulse
  split
  · split
    · exact fireWindow _ _ _ _
    · exact refl _
  · exact refl _

theorem endPulse (s : State) (p : Proj) : Sound l s (s.endPulse p) := by
  unfold State.endPulse
  dsimp only
  split
  · exact (setWindow _ _ _).trans (emit _ _)
  · exact refl _

theorem limitPulse (s : State) (p : Proj) : Sound l s (s.limitPulse p) := by
  unfold State.limitPulse
  split
  · dsimp only
    split
    · exact (stopMotor _ _).trans (emit _ _)
    · exact refl _
  · exact refl _

/-- R77: a count that rises is below its greatest value. -/
theorem count_lt_of_rises (h : s.countRises p = true) : (s.trm.get p).count < 65535 := by
  unfold State.countRises State.stopLimit at h
  cases hl : (s.trm.get p).runLength <;> simp [hl] at h <;> omega

theorem countPulse (s : State) (p : Proj) (time : Nat) : Sound l s (s.countPulse p time) := by
  have hmeasure (u : State) : Sound l u ((u.measure p time).modTrm p Trm.restartStall) :=
    (measure _ _ _).trans (restartStall _ _)
  unfold State.countPulse
  dsimp only
  split
  · next hr =>
    have hadv : Sound l s (countAdvanced p (s.modTrm p fun t => { t with count := t.count + 1 })) :=
      (trmOnly fun h => h.advance (count_lt_of_rises hr)).trans
        (of_moves (Moves.refl _).countAdvanced Held.countAdvanced)
    exact (((hadv.trans (hmeasure _)).trans (windowPulse _ _)).trans (endPulse _ _)).trans (limitPulse _ _)
  · exact (hmeasure s).trans (limitPulse _ _)

theorem tachPulse (s : State) (p : Proj) (time : Nat) : Sound l s (Machine.tachPulse p time s) := by
  unfold Machine.tachPulse
  split
  · exact countPulse _ _ _
  · exact refl _

theorem strayEdge (s : State) (p : Proj) : Sound l s (s.modTrm p Trm.strayEdge) := by
  refine trmOnly (fun h => h.strayEdge) ?_ ?_ ?_ ?_ <;> (unfold Trm.strayEdge; split <;> rfl)

theorem cueReads (s : State) (p : Proj) (v : Bool) :
    Accepts (.cueSensor p) v s (s.modTrm p fun t => { t with cueMark := some v }) :=
  ⟨modTrm (fun h => h.cueLevel _ _) (.inl (by simp)) (.inr ⟨rfl, rfl⟩), by simp [State.samples],
    by simp [State.inputLevel]⟩

theorem loopReads (s : State) (p : Proj) (v : Bool) :
    Accepts (.loopSwitch p) v s (s.modTrm p fun t => { t with loopClosed := some v }) :=
  ⟨modTrm (fun h => h.loopLevel _ _) (.inr ⟨rfl, rfl⟩) (.inl (by simp)), by simp [State.samples],
    by simp [State.inputLevel]⟩

theorem markEdge (s : State) (p : Proj) : Accepts (.cueSensor p) true s (Machine.markEdge p s) := by
  have hread := cueReads s p true
  unfold Machine.markEdge
  dsimp only
  split
  · split
    · exact hread.andThen (fireWindow _ _ _ _)
    · exact hread.andThen (strayEdge _ _)
  · exact hread.andThen (strayEdge _ _)

theorem loopOpens (s : State) (p : Proj) : Accepts (.loopSwitch p) false s (Machine.loopOpens p s) := by
  have hread := loopReads s p false
  unfold Machine.loopOpens
  dsimp only
  split
  · split
    · exact hread.andThen ((stopMotor _ _).trans (emit _ _))
    · exact hread.andThen (emit _ _)
  · exact hread

theorem runUpExpiry (s : State) (p : Proj) : Sound l s (Machine.runUpExpiry p s) := by
  unfold Machine.runUpExpiry
  dsimp only
  split
  · exact (stopMotor _ _).trans (emit _ _)
  · exact refl _

theorem stallExpiry (s : State) (p : Proj) : Sound l s (Machine.stallExpiry p s) := by
  unfold Machine.stallExpiry
  dsimp only
  split
  · exact (stopMotor _ _).trans (emit _ _)
  · exact refl _

/-! ### Lamps (chapters 5 and 6) -/

theorem strike (s : State) (x : LampAsker) : Sound l s (Machine.strike x s) := by
  unfold Machine.strike
  split
  · exact askStrike _ _
  · split
    · exact answer _ _ _ _
    · exact (askStrike _ _).trans (answer _ _ _ _)

theorem extinguish (s : State) (x : LampAsker) : Sound l s (Machine.extinguish x s) := by
  unfold Machine.extinguish
  split
  · exact putOut _ _ _
  · split
    · exact answer _ _ _ _
    · split
      · exact answer _ _ _ _
      · exact (putOut _ _ _).trans (answer _ _ _ _)

theorem attemptExpiry (s : State) (p : Proj) : Sound l s (Machine.attemptExpiry p s) := by
  unfold Machine.attemptExpiry
  dsimp only
  split
  · next ht =>
    split
    · next hleft => exact modAlc fun h => h.beginCoolOff ht hleft
    · exact lampChange _ _ _ _ fun h => h.enter_unlit rfl _
  · exact refl _

theorem coolOffExpiry (s : State) (p : Proj) : Sound l s (Machine.coolOffExpiry p s) := by
  unfold Machine.coolOffExpiry
  split
  · next ht => exact modAlc fun h => h.nextAttempt ht
  · exact refl _

theorem restrikeWithheld_none (h : s.restrikeWithheld p = none) : (s.alc.get p).remaining ≠ 0 := by
  unfold State.restrikeWithheld at h
  simp only at h
  split_ifs at h
  assumption

theorem arcLost (s : State) (p : Proj) : Sound l s (Machine.arcLost p s) := by
  unfold Machine.arcLost
  split
  · next h => exact beginStrike _ _ _ (restrikeWithheld_none h)
  · next w _ => exact (modAlc fun h => h.withheld (some w)).trans (lampChange _ _ _ _ fun h => h.enter_unlit rfl _)

end Sound

/-! ### The arc sample (R97, R102 to R106, R109 to R112) -/

namespace OnlyLamp

theorem trimLow (s : State) (p : Proj) : OnlyLamp p s (s.trimLow p) := by
  unfold State.trimLow
  dsimp only
  split
  · exact refl _ _
  · split
    · exact (modAlc _ _ _).trans (note _ _ _)
    · exact refl _ _

theorem feedRegulation (s : State) (p : Proj) : OnlyLamp p s (Machine.feedRegulation p s) := by
  unfold Machine.feedRegulation
  dsimp only
  split
  · exact modAlc _ _ _
  · split
    · exact ((modAlc _ _ _).trans (trimLow _ _)).trans (lampChange _ _ _ _)
    · exact (modAlc _ _ _).trans (trimLow _ _)

theorem arcLost (s : State) (p : Proj) : OnlyLamp p s (Machine.arcLost p s) := by
  unfold Machine.arcLost
  split
  · exact beginStrike _ _ _
  · exact (modAlc _ _ _).trans (lampChange _ _ _ _)

theorem attemptTest (s : State) (p : Proj) : OnlyLamp p s (Machine.attemptTest p s) := by
  unfold Machine.attemptTest
  dsimp only
  split
  · split
    · exact modAlc _ _ _
    · exact (modAlc _ _ _).trans (lampChange _ _ _ _)
  · exact modAlc _ _ _

theorem stabilityTest (s : State) (p : Proj) : OnlyLamp p s (Machine.stabilityTest p s) := by
  unfold Machine.stabilityTest
  dsimp only
  split
  · split
    · exact modAlc _ _ _
    · exact (modAlc _ _ _).trans (lampChange _ _ _ _)
  · exact modAlc _ _ _

theorem burningSample (s : State) (p : Proj) : OnlyLamp p s (Machine.burningSample p s) := by
  unfold Machine.burningSample
  dsimp only
  split
  · exact (modAlc _ _ _).trans (arcLost _ _)
  · split
    · exact ((modAlc _ _ _).trans (feedRegulation _ _)).trans (stabilityTest _ _)
    · exact (modAlc _ _ _).trans (feedRegulation _ _)

theorem arcSample (s : State) (p : Proj) (vm im : Nat) : OnlyLamp p s (Machine.arcSample p vm im s) := by
  unfold Machine.arcSample
  dsimp only
  split
  · exact modAlc _ _ _
  · exact modAlc _ _ _
  · split
    · exact (modAlc _ _ _).trans (attemptTest _ _)
    · exact modAlc _ _ _
  · exact (modAlc _ _ _).trans (burningSample _ _)
  · exact (modAlc _ _ _).trans (burningSample _ _)

end OnlyLamp

@[simp] theorem alc_lampChange (s : State) (p : Proj) (new : LampState) (cause : LampCause) :
    (s.lampChange p new cause).alc.get p = (s.alc.get p).enter new cause := (lampChange_spec _ _ _ _).1

@[simp] theorem alc_beginStrike (s : State) (p : Proj) (cause : LampCause) :
    (s.beginStrike p cause).alc.get p = ((s.alc.get p).prepareStrike.enter .striking cause).beginAttempt :=
  (beginStrike_spec _ _ _).1

/-- R127: the trim-low comparison writes the service record alone. -/
theorem alc_trimLow (s : State) (p : Proj) : ∃ v, (s.trimLow p).alc.get p = { s.alc.get p with service := v } := by
  unfold State.trimLow
  dsimp only
  split
  · exact ⟨_, rfl⟩
  · split
    · exact ⟨some _, by simp; rfl⟩
    · exact ⟨_, rfl⟩

namespace Alc.Legal

theorem attemptTest (h : (s.alc.get p).Legal) (hs : (s.alc.get p).state = .striking) :
    ((Machine.attemptTest p s).alc.get p).Legal := by
  have hnot : ¬((s.alc.get p).state = .warming ∨ (s.alc.get p).state = .stable) := by simp [hs]
  unfold Machine.attemptTest
  dsimp only
  split
  · split
    · next hgood =>
      simpa using h.setTests (Nat.le_of_lt hgood) h.tests.2.1 h.tests.2.2 (absurd · hnot)
    · rw [alc_lampChange, State.modAlc_alc, Oct.get_set_self]
      exact enter_burning (h.setTests (Nat.le_refl 3) (Nat.zero_le _) (Nat.zero_le 5) fun _ => Nat.zero_le _)
        (.inl rfl) _ (Nat.zero_le _) (h.carbon (by rw [hs]; rfl))
  · simpa using h.setTests (Nat.zero_le _) h.tests.2.1 h.tests.2.2 (absurd · hnot)

theorem stabilityTest (h : (s.alc.get p).Legal) (hs : (s.alc.get p).state = .warming) :
    ((Machine.stabilityTest p s).alc.get p).Legal := by
  have hlow := h.low (.inl hs)
  unfold Machine.stabilityTest
  dsimp only
  split
  · split
    · next hband =>
      simpa using h.setTests h.tests.1 (Nat.le_of_lt hband) h.tests.2.2 fun _ => hlow
    · rw [alc_lampChange, State.modAlc_alc, Oct.get_set_self]
      exact enter_burning (h.setTests h.tests.1 (Nat.le_refl 200) h.tests.2.2 fun _ => hlow)
        (.inr rfl) _ hlow (h.carbon (by rw [hs]; rfl))
  · simpa using h.setTests h.tests.1 (Nat.zero_le _) h.tests.2.2 fun _ => hlow

/-- R109 to R112: the feed of a burning arc leaves a legal record, the lamp out when the trim is used up. -/
theorem feedRegulation (h : (s.alc.get p).Legal) (hs : (s.alc.get p).state.lit = true) :
    ((Machine.feedRegulation p s).alc.get p).Legal := by
  have hburn := h.carbon hs
  obtain ⟨v, hv⟩ := alc_trimLow (s.modAlc p Alc.feed) p
  rw [State.modAlc_alc, Oct.get_set_self] at hv
  unfold Machine.feedRegulation
  dsimp only
  split
  · next hzero =>
    rw [State.modAlc_alc, Oct.get_set_self] at hzero ⊢
    refine h.feed ?_
    change (s.alc.get p).consumed + (s.alc.get p).feedSteps ≠ (s.alc.get p).trim
    change (s.alc.get p).feedSteps = 0 at hzero
    omega
  · split
    · rw [alc_lampChange, hv]
      exact h.feed_out v _
    · next hleft =>
      rw [hv] at hleft ⊢
      exact (h.feed hleft).service v

/-- R105, R106: a fifth low sample restrikes the arc or puts it out. -/
theorem arcLost (h : (s.alc.get p).Legal) {n : Nat} (hn : n ≤ 5) :
    ((Machine.arcLost p (s.modAlc p fun a => { a with lowRun := n })).alc.get p).Legal := by
  unfold Machine.arcLost
  split
  · next hnone =>
    rw [alc_beginStrike, State.modAlc_alc, Oct.get_set_self]
    refine h.strike (remaining_pos ?_) _
    simpa [Alc.remaining] using Sound.restrikeWithheld_none hnone
  · next w _ =>
    rw [alc_lampChange, State.modAlc_alc, Oct.get_set_self, State.modAlc_alc, Oct.get_set_self]
    exact ((h.enter_unlit (new := .dark) rfl .arcLost).withheld (some w)).setTests h.tests.1 h.tests.2.1 hn
      fun x => by simp [Alc.enter] at x

theorem burningSample (h : (s.alc.get p).Legal)
    (hs : (s.alc.get p).state = .warming ∨ (s.alc.get p).state = .stable) :
    ((Machine.burningSample p s).alc.get p).Legal := by
  have hlit : (s.alc.get p).state.lit = true := by obtain x | x := hs <;> rw [x] <;> rfl
  have hlow := h.low hs
  have hafter : (s.alc.get p).lowAfter ≤ 5 := by unfold Alc.lowAfter; split <;> omega
  have hmod : (s.modAlc p fun a => { a with lowRun := a.lowAfter }) =
      s.modAlc p fun a => { a with lowRun := (s.alc.get p).lowAfter } := rfl
  unfold Machine.burningSample
  rw [hmod]
  dsimp only
  split
  · exact h.arcLost hafter
  · next hfew =>
    have hfew : (s.alc.get p).lowAfter < 5 := by simpa [Config.lowSamples] using hfew
    have h1 : ((s.modAlc p fun a => { a with lowRun := (s.alc.get p).lowAfter }).alc.get p).Legal := by
      simpa using h.setTests h.tests.1 h.tests.2.1 hafter fun _ => Nat.le_of_lt_succ hfew
    have h2 := h1.feedRegulation (by simpa using hlit)
    split
    · next hwarm => exact h2.stabilityTest hwarm
    · exact h2

theorem arcSample (h : (s.alc.get p).Legal) (vm im : Nat) : ((Machine.arcSample p vm im s).alc.get p).Legal := by
  have h1 : ((s.modAlc p (·.sample vm im)).alc.get p).Legal := by simpa using h.sampled vm im
  unfold Machine.arcSample
  dsimp only
  split
  · exact h1
  · exact h1
  · next hs =>
    split
    · exact h1.attemptTest hs
    · exact h1
  · next hs => exact h1.burningSample (.inl hs)
  · next hs => exact h1.burningSample (.inr hs)

end Alc.Legal

namespace Sound

theorem arcSample (s : State) (p : Proj) (vm im : Nat) : Sound l s (Machine.arcSample p vm im s) :=
  of_lamp (.arcSample _ _ _ _) fun h => h.arcSample vm im

/-! ### Trims and lamp setups (R113, R117) -/

theorem fitTrim (hl : (s.alc.get p).state.lit = false) {n : Nat} (hn : n ≤ 16000) : Sound l s (s.fitTrim p n) := by
  have hnew : Sound l s (s.modAlc p (·.newTrim n)) := modAlc fun h => h.newTrim hl hn
  unfold State.fitTrim
  dsimp only
  split
  · exact ((hnew.trans (modAlc fun h => h.withheld _)).trans (lampChange _ _ _ _ fun h => h.enter_unlit rfl _)).trans
      (emit _ _)
  · exact hnew.trans (emit _ _)

theorem setTrim (s : State) (tag lamp : Byte) (length : Half) : Sound l s (Machine.setTrim tag lamp length s) := by
  unfold Machine.setTrim
  split
  · exact answerSet _ _ _ _ _
  · split
    · exact answerSet _ _ _ _ _
    · next hl => exact (fitTrim (by simpa using hl) (Nat.min_le_left _ _)).trans (answerSet _ _ _ _ _)

theorem setLamp (s : State) (tag lamp : Byte) (x : LampFields) : Sound l s (Machine.setLamp tag lamp x s) := by
  have hlimit : 1 ≤ (lampSetupOf x).limit ∧ (lampSetupOf x).limit ≤ 8 := by
    simp only [lampSetupOf, clamp]
    omega
  unfold Machine.setLamp
  split
  · exact answerSet _ _ _ _ _
  · split
    · exact (modAlc fun h => h.setup hlimit.1 hlimit.2).trans (answerSet _ _ _ _ _)
    · exact answerSet _ _ _ _ _

end Sound

end Sys2Proof.Machine
end

section
namespace Sys2Proof.Machine

variable {l : List SwitchInput} {s t : State} {p : Proj}

/-! ## Shutters brought down (R158, R161, R164) -/

/-- A shutter's record after it is brought down for `reason`: one that is DROPPED keeps its drop reason. -/
def Shutter.down (x : Shutter) (reason : DropReason) : Shutter :=
  if x.state = .dropped then x else { x with state := .dropped, reason := reason, raiseTimer := false }

theorem Shutter.down_state (x : Shutter) (reason : DropReason) : (x.down reason).state = .dropped := by
  unfold Shutter.down
  split
  · assumption
  · rfl

theorem Shutter.down_down (x : Shutter) (r r' : DropReason) : (x.down r).down r' = x.down r :=
  if_pos (x.down_state r)

theorem Shutter.down_up (x : Shutter) (reason : DropReason) :
    (x.down reason).upSamples = x.upSamples ∧ (x.down reason).up = x.up := by
  unfold Shutter.down
  split <;> exact ⟨rfl, rfl⟩

theorem Shutter.down_raiseTimer {x : Shutter} (hx : x.raiseTimer = true ↔ x.state = .raising) (reason : DropReason) :
    (x.down reason).raiseTimer = false := by
  unfold Shutter.down
  split
  · next h => rw [h] at hx; simpa using hx
  · rfl

theorem Bsu.modShutter_self (b : Bsu) (p : Proj) (f : Shutter → Shutter) :
    (b.modShutter p f).shutters.get p = f (b.shutters.get p) := by simp [Bsu.modShutter]

theorem Bsu.modShutter_ne (b : Bsu) {p q : Proj} (f : Shutter → Shutter) (h : q ≠ p) :
    (b.modShutter p f).shutters.get q = b.shutters.get q := by simp [Bsu.modShutter, h]

/-- The notice of a shutter that is brought down. -/
def State.dropNotice (s : State) (p : Proj) (reason : DropReason) : Notice :=
  ⟨s.bck.time, .shutter p .dropped (s.bsu.shutters.get p).state (some reason)⟩

theorem putDown_bsu (s : State) (p : Proj) (reason : DropReason) :
    (s.putDown p reason).bsu = s.bsu.modShutter p (·.down reason) := by
  unfold State.putDown
  split
  · next h => simp [Bsu.modShutter, Shutter.down, h]
  · next h => simp [State.moveShutter, Bsu.modShutter, Shutter.down, Shutter.enter, h]

theorem putDown_cnl_of_up (h : (s.bsu.shutters.get p).state ≠ .dropped) (reason : DropReason) :
    (s.putDown p reason).cnl = s.cnl.raise (s.dropNotice p reason) := by
  simp [State.putDown, h, State.moveShutter, State.dropNotice]

theorem putDown_of_dropped (h : (s.bsu.shutters.get p).state = .dropped) (reason : DropReason) :
    s.putDown p reason = s := by simp [State.putDown, h]

/-- R164 item 1: every shutter of the list is down, the others stand as they stood. -/
theorem dropAll_shutters (ps : List Proj) (s : State) (q : Proj) :
    (s.dropAll ps).bsu.shutters.get q =
      if q ∈ ps then (s.bsu.shutters.get q).down .fire else s.bsu.shutters.get q := by
  induction ps generalizing s with
  | nil => rfl
  | cons p ps ih =>
    rw [State.dropAll, ih, putDown_bsu]
    by_cases hq : q = p
    · subst hq
      rw [Bsu.modShutter_self, Shutter.down_down]
      simp
    · rw [Bsu.modShutter_ne _ _ hq]
      simp [hq]

theorem dropAll_bsu (ps : List Proj) (s : State) :
    (s.dropAll ps).bsu = { s.bsu with shutters := (s.dropAll ps).bsu.shutters } := by
  induction ps generalizing s with
  | nil => rfl
  | cons p ps ih =>
    rw [State.dropAll, ih, putDown_bsu]
    rfl

theorem dropAll_keeps (ps : List Proj) (s : State) : KeepsAllBut s (s.dropAll ps) [.cnl, .bsu] := by
  induction ps generalizing s with
  | nil => exact KeepsAllBut.refl _ _
  | cons p ps ih => exact (putDown_spec s p .fire).2.2.trans (ih _)

/-- R164 item 1, R171: one SHUTTER notice for each shutter that was up, in the order of the list. -/
theorem dropAll_cnl {ps : List Proj} (hps : ps.Nodup) (s : State) :
    (s.dropAll ps).cnl =
      ((ps.filter fun p => decide ((s.bsu.shutters.get p).state ≠ .dropped)).map (s.dropNotice · .fire)).foldl
        Cnl.raise s.cnl := by
  induction ps generalizing s with
  | nil => rfl
  | cons p ps ih =>
    obtain ⟨hp, hnodup⟩ := List.nodup_cons.1 hps
    have hkeep := (putDown_spec s p .fire).2.2
    have htime : (s.putDown p .fire).bck = s.bck := hkeep .bck (by simp)
    have hsame : ∀ q ∈ ps, (s.putDown p .fire).bsu.shutters.get q = s.bsu.shutters.get q := fun q hq => by
      rw [putDown_bsu, Bsu.modShutter_ne _ _ (by rintro rfl; exact hp hq)]
    have hfilter : (ps.filter fun q => decide (((s.putDown p .fire).bsu.shutters.get q).state ≠ .dropped)) =
        ps.filter fun q => decide ((s.bsu.shutters.get q).state ≠ .dropped) :=
      List.filter_congr fun q hq => by rw [hsame q hq]
    have hnotes : ∀ qs ⊆ ps, qs.map ((s.putDown p .fire).dropNotice · .fire) = qs.map (s.dropNotice · .fire) :=
      fun qs hqs => List.map_congr_left fun q hq => by
        unfold State.dropNotice
        rw [hsame q (hqs hq), htime]
    rw [State.dropAll, ih hnodup, hfilter, hnotes _ fun q hq => (List.mem_filter.1 hq).1]
    by_cases hup : (s.bsu.shutters.get p).state = .dropped
    · simp [hup, putDown_of_dropped hup]
    · simp [hup, putDown_cnl_of_up hup]

theorem mem_allProj (p : Proj) : p ∈ Proj.all := by cases p <;> decide
theorem mem_allScreen (sc : Screen) : sc ∈ Screen.all := by cases sc <;> decide

/-! ## The FIRE ranks (R135, R164, R166) -/

theorem changeRank_noted (s : State) (sc : Screen) (r : Rank) (x : Option LightRequest) :
    Noted s.cnl (s.changeRank sc r x).cnl := by
  unfold State.changeRank
  dsimp only
  split
  · exact Noted.refl _
  · exact ⟨[_], rfl⟩

theorem fireWrites_keeps (scs : List Screen) (s : State) :
    KeepsAllBut s (s.fireWrites scs) (.cnl :: scs.map .hlc) ∧ Noted s.cnl (s.fireWrites scs).cnl := by
  induction scs generalizing s with
  | nil => exact ⟨KeepsAllBut.refl _ _, Noted.refl _⟩
  | cons sc scs ih =>
    obtain ⟨hkeep, hnote⟩ := ih (s.writeFireRank sc)
    exact ⟨((changeRank_spec _ _ _ _).2.2.2.mono (by simp)).trans (hkeep.mono (by simp +contextual)),
      (changeRank_noted _ _ _ _).trans hnote⟩

theorem fireReleases_keeps (scs : List Screen) (s : State) :
    KeepsAllBut s (s.fireReleases scs) (.cnl :: scs.map .hlc) ∧ Noted s.cnl (s.fireReleases scs).cnl := by
  induction scs generalizing s with
  | nil => exact ⟨KeepsAllBut.refl _ _, Noted.refl _⟩
  | cons sc scs ih =>
    obtain ⟨hkeep, hnote⟩ := ih (s.releaseFireRank sc)
    exact ⟨((changeRank_spec _ _ _ _).2.2.2.mono (by simp)).trans (hkeep.mono (by simp +contextual)),
      (changeRank_noted _ _ _ _).trans hnote⟩

/-! ## Booth safety stays safe (chapter 8) -/

namespace Bsu.Safe

variable {b : Bsu}

theorem setVeto (h : b.Safe) (p : Proj) (v : VetoCause) : (b.setVeto p (some v)).Safe where
  shut := h.shut
  vetoed x q := by
    by_cases hq : q = p
    · subst hq; simp [Bsu.setVeto]
    · simpa [Bsu.setVeto, hq] using h.vetoed x q
  raising := h.raising
  proving := h.proving
  losing := h.losing

theorem clearVeto (h : b.Safe) (hf : b.fire = none) (he : b.estop = none) (p : Proj) : (b.setVeto p none).Safe where
  shut := h.shut
  vetoed x := by simp [Bsu.setVeto, hf, he] at x
  raising := h.raising
  proving := h.proving
  losing := h.losing

theorem down (h : b.Safe) (p : Proj) (reason : DropReason) : (b.modShutter p (·.down reason)).Safe where
  shut x q := by
    by_cases hq : q = p
    · subst hq; rw [Bsu.modShutter_self]; exact Shutter.down_state _ _
    · rw [Bsu.modShutter_ne _ _ hq]; exact h.shut x q
  vetoed := h.vetoed
  raising q := by
    by_cases hq : q = p
    · subst hq
      rw [Bsu.modShutter_self, Shutter.down_raiseTimer (h.raising q), Shutter.down_state]
      simp
    · rw [Bsu.modShutter_ne _ _ hq]; exact h.raising q
  proving := h.proving
  losing := h.losing

/-- R156, R157: a shutter goes up while the fire state is clear. -/
theorem raise (h : b.Safe) (hf : b.fire = none) (p : Proj) (new : ShutterState) (reason : Option DropReason) :
    (b.modShutter p (·.enter new reason)).Safe where
  shut x := by simp [Bsu.modShutter, hf] at x
  vetoed := h.vetoed
  raising q := by
    by_cases hq : q = p
    · subst hq; rw [Bsu.modShutter_self]; simp [Shutter.enter]
    · rw [Bsu.modShutter_ne _ _ hq]; exact h.raising q
  proving := h.proving
  losing := h.losing

/-- What the record says of its inputs is no part of safety. -/
theorem inputs (h : b.Safe) (f : Option Bool) (e : Option Bool) (x : Option Bool) (fs es xs : List Bool) :
    ({ b with fireInput := f, estopInput := e, exhaustInput := x, fireSamples := fs, estopSamples := es,
              exhaustSamples := xs } : Bsu).Safe :=
  ⟨h.shut, h.vetoed, h.raising, h.proving, h.losing⟩

theorem shutterSensor (h : b.Safe) (p : Proj) (v : Option Bool) (x : List Bool) :
    (b.modShutter p fun y => { y with up := v, upSamples := x }).Safe where
  shut y q := by
    by_cases hq : q = p
    · subst hq; rw [Bsu.modShutter_self]; exact h.shut y q
    · rw [Bsu.modShutter_ne _ _ hq]; exact h.shut y q
  vetoed := h.vetoed
  raising q := by
    by_cases hq : q = p
    · subst hq; rw [Bsu.modShutter_self]; exact h.raising q
    · rw [Bsu.modShutter_ne _ _ hq]; exact h.raising q
  proving := h.proving
  losing := h.losing

theorem unlatchFire (h : b.Safe) : ({ b with fire := none } : Bsu).Safe where
  shut x := by cases x
  vetoed x q := h.vetoed (.inr (x.resolve_left (by simp))) q
  raising := h.raising
  proving := h.proving
  losing := h.losing

theorem addReason (h : b.Safe) {r : FireRecord} (hr : b.fire = some r) (r' : FireRecord) :
    ({ b with fire := some r' } : Bsu).Safe where
  shut _ := h.shut (by simp [hr])
  vetoed _ := h.vetoed (.inl (by simp [hr]))
  raising := h.raising
  proving := h.proving
  losing := h.losing

theorem latchEstop (h : b.Safe) (time : Nat) :
    ({ b with estop := some time, vetoes := Oct.const (some .estop) } : Bsu).Safe where
  shut := h.shut
  vetoed _ q := by simp
  raising := h.raising
  proving := h.proving
  losing := h.losing

theorem clearRaised_fields (ps : List Proj) (b : Bsu) :
    b.clearRaised ps = { b with vetoes := (b.clearRaised ps).vetoes } ∧
    ∀ q, (b.clearRaised ps).vetoes.get q =
      if q ∈ ps ∧ (b.shutters.get q).state = .raised then none else b.vetoes.get q := by
  induction ps generalizing b with
  | nil => exact ⟨rfl, fun q => by simp [Bsu.clearRaised]⟩
  | cons p ps ih =>
    unfold Bsu.clearRaised
    split
    · next hp =>
      obtain ⟨hrec, hveto⟩ := ih (b.setVeto p none)
      refine ⟨hrec.trans rfl, fun q => ?_⟩
      rw [hveto]
      by_cases hq : q = p
      · subst hq; simp [Bsu.setVeto, hp]
      · simp [Bsu.setVeto, hq]
    · next hp =>
      obtain ⟨hrec, hveto⟩ := ih b
      refine ⟨hrec, fun q => ?_⟩
      rw [hveto]
      by_cases hq : q = p
      · subst hq; simp [hp]
      · simp [hq]

/-- R168: no veto of a shutter that is up is cleared under the fire state, for then none is up. -/
theorem unlatchEstop (h : b.Safe) (ps : List Proj) : ({ b with estop := none }.clearRaised ps).Safe := by
  obtain ⟨hrec, hveto⟩ := clearRaised_fields ps { b with estop := none }
  rw [hrec]
  refine ⟨h.shut, fun x q => ?_, h.raising, h.proving, h.losing⟩
  have hfire : b.fire.isSome = true := by simpa using x
  change ((Bsu.clearRaised { b with estop := none } ps).vetoes.get q).isSome = true
  rw [hveto, if_neg (by simp [h.shut hfire q])]
  exact h.vetoed (.inl hfire) q

theorem exhaustEdge (h : b.Safe) (v : Bool) : (b.exhaustEdge v).Safe := by
  unfold Bsu.exhaustEdge
  split
  · next hp => exact ⟨h.shut, h.vetoed, h.raising, h.proving, fun _ => hp⟩
  · next hp => exact ⟨h.shut, h.vetoed, h.raising, fun _ => by simpa using hp, h.losing⟩

theorem settleExhaust (h : b.Safe) (v : Bool) : (b.settleExhaust v).Safe := by
  refine ⟨h.shut, h.vetoed, h.raising, fun x => ?_, h.losing⟩
  have hx : b.provingTimer = true ∨ v = true ∧ b.proven = false := by simpa [Bsu.settleExhaust] using x
  exact hx.elim h.proving And.right

theorem proven (h : b.Safe) : ({ b with proven := true, provingTimer := false } : Bsu).Safe :=
  ⟨h.shut, h.vetoed, h.raising, fun x => (by cases x), fun _ => rfl⟩

theorem lost (h : b.Safe) : ({ b with proven := false, lossTimer := false } : Bsu).Safe :=
  ⟨h.shut, h.vetoed, h.raising, fun _ => rfl, fun x => (by cases x)⟩

theorem reset : Bsu.reset.Safe :=
  ⟨nofun, by simp [Bsu.reset], fun p => by simp [Bsu.reset, Shutter.reset], nofun, nofun⟩

end Bsu.Safe

end Sys2Proof.Machine
end

section
namespace Sys2Proof.Machine

variable {l : List SwitchInput} {s t : State} {p : Proj}

/-! ## The fire state latched (R163, R164) -/

/-- R164 item 1: every shutter that was up is down. -/
@[irreducible] def State.allDown (s : State) : State := s.dropAll Proj.all

theorem allDown_shutter (s : State) (q : Proj) : s.allDown.bsu.shutters.get q = (s.bsu.shutters.get q).down .fire := by
  unfold State.allDown
  exact (dropAll_shutters Proj.all s q).trans (if_pos (mem_allProj q))

theorem allDown_bsu (s : State) : s.allDown.bsu = { s.bsu with shutters := s.allDown.bsu.shutters } := by
  unfold State.allDown
  exact dropAll_bsu _ _

theorem allDown_keeps (s : State) : KeepsAllBut s s.allDown [.cnl, .bsu] := by
  unfold State.allDown
  exact dropAll_keeps _ _

theorem allDown_cnl (s : State) :
    s.allDown.cnl =
      ((Proj.all.filter fun p => decide ((s.bsu.shutters.get p).state ≠ .dropped)).map
        (s.dropNotice · .fire)).foldl Cnl.raise s.cnl := by
  unfold State.allDown
  exact dropAll_cnl (by decide) _

theorem allDown_noted (s : State) : Noted s.cnl s.allDown.cnl := ⟨_, allDown_cnl s⟩

/-- The booth's record with its fire state latched for `reason`. -/
def State.latchedBsu (s : State) (reason : FireReason) (linkProj : Option Proj) : Bsu :=
  { s.bsu with fire := some (FireRecord.first_ reason s.bck.time linkProj)
               shutters := s.allDown.bsu.shutters, vetoes := Oct.const (some .fire) }

/-- Bringing the shutters down does not read the fire record. -/
theorem dropAll_of_fire (ps : List Proj) (s : State) (x : Option FireRecord) :
    (s.modBsu fun b => { b with fire := x }).dropAll ps = (s.dropAll ps).modBsu fun b => { b with fire := x } := by
  induction ps generalizing s with
  | nil => rfl
  | cons p ps ih =>
    rw [State.dropAll, State.dropAll, ← ih]
    congr 1
    unfold State.putDown
    by_cases h : (s.bsu.shutters.get p).state = .dropped
    · simp [h]
    · simp [h]; rfl

/-- R164: the latch, with the booth's record written out. -/
theorem latchFire_eq (s : State) (reason : FireReason) (linkProj : Option Proj) :
    s.latchFire reason linkProj =
      (((s.allDown.modBsu fun _ => s.latchedBsu reason linkProj).emitAll fireHandouts).noteSafety
        .fireLatched none).fireWrites Screen.all := by
  have hbsu : (s.allDown.modBsu fun b =>
        { b with fire := some (FireRecord.first_ reason s.bck.time linkProj), vetoes := Oct.const (some .fire) }) =
      s.allDown.modBsu fun _ => s.latchedBsu reason linkProj := by
    have hrec := allDown_bsu s
    unfold State.modBsu State.latchedBsu
    rw [hrec]
  have hfire := dropAll_of_fire Proj.all s (some (FireRecord.first_ reason s.bck.time linkProj))
  unfold State.latchFire
  rw [← hbsu]
  unfold State.allDown
  dsimp only
  rw [hfire]
  simp only [State.modBsu]

theorem latchedBsu_shutter (s : State) (reason : FireReason) (linkProj : Option Proj) (q : Proj) :
    (s.latchedBsu reason linkProj).shutters.get q = (s.bsu.shutters.get q).down .fire := allDown_shutter s q

theorem latchedBsu_safe (h : s.bsu.Safe) (reason : FireReason) (linkProj : Option Proj) :
    (s.latchedBsu reason linkProj).Safe where
  shut _ q := by rw [latchedBsu_shutter]; exact Shutter.down_state _ _
  vetoed _ q := by simp [State.latchedBsu]
  raising q := by
    rw [latchedBsu_shutter, Shutter.down_raiseTimer (h.raising q), Shutter.down_state]
    simp
  proving := h.proving
  losing := h.losing

namespace Sound

theorem moveShutter {new : ShutterState} {reason : Option DropReason}
    (hf : s.bsu.Safe → (s.bsu.modShutter p (·.enter new reason)).Safe) : Sound l s (s.moveShutter p new reason) := by
  refine (modBsu hf (fun q _ => ?_) (fun _ => ⟨rfl, rfl⟩) (fun _ => ⟨rfl, rfl⟩) (fun _ => ⟨rfl, rfl⟩)).trans (note _ _)
  by_cases hq : q = p
  · subst hq; rw [Bsu.modShutter_self]; exact ⟨rfl, rfl⟩
  · rw [Bsu.modShutter_ne _ _ hq]; exact ⟨rfl, rfl⟩

theorem putDown (s : State) (p : Proj) (reason : DropReason) : Sound l s (s.putDown p reason) := by
  have hbsu := putDown_bsu s p reason
  unfold State.putDown at hbsu ⊢
  split
  · exact refl _
  · next hup =>
    rw [if_neg hup] at hbsu
    exact moveShutter fun h => by
      rw [← (moveShutter_spec s p .dropped (some reason)).1, hbsu]
      exact h.down p reason

theorem setVeto (s : State) (p : Proj) (v : VetoCause) : Sound l s (s.modBsu (·.setVeto p (some v))) :=
  bsuOnly fun h => h.setVeto p v

theorem breakAt (s : State) (p : Proj) (kind : BreakKind) (n : Nat) : Sound l s (s.breakAt p kind n) :=
  ((putDown _ _ _).trans (setVeto _ _ _)).trans (emitAll _ _)

theorem fireWrites (s : State) (scs : List Screen) : Sound l s (s.fireWrites scs) := by
  induction scs generalizing s with
  | nil => exact refl _
  | cons sc scs ih => exact (changeRank _ _ _ _).trans (ih _)

theorem fireReleases (s : State) (scs : List Screen) : Sound l s (s.fireReleases scs) := by
  induction scs generalizing s with
  | nil => exact refl _
  | cons sc scs ih => exact (changeRank _ _ _ _).trans (ih _)

theorem latchFire (s : State) (reason : FireReason) (x : Option Proj) : Sound l s (s.latchFire reason x) := by
  have hkeep := allDown_keeps s
  have htrm : ∀ q, s.allDown.trm.get q = s.trm.get q := fun q => hkeep (.trm q) (by simp)
  have halc : ∀ q, s.allDown.alc.get q = s.alc.get q := fun q => hkeep (.alc q) (by simp)
  have hshc : ∀ x, s.allDown.shc.get x = s.shc.get x := fun x => hkeep (.shc x) (by simp)
  have hdrop : Sound l s (s.allDown.modBsu fun _ => s.latchedBsu reason x) := by
    refine ⟨hkeep .pending (by simp), (allDown_noted _).bounded, fun h => latchedBsu_safe h _ _,
      fun q h => htrm q ▸ h, fun q h => halc q ▸ h, fun x h => hshc x ▸ h, fun i _ => ?_⟩
    cases i with
    | cueSensor q => simp [State.samples, State.inputLevel, htrm]
    | loopSwitch q => simp [State.samples, State.inputLevel, htrm]
    | shutterUp q =>
      have hsame := Shutter.down_up (s.bsu.shutters.get q) .fire
      rw [← latchedBsu_shutter s reason x q] at hsame
      exact hsame
    | _ => exact ⟨rfl, rfl⟩
  rw [latchFire_eq]
  exact ((hdrop.trans (emitAll _ _)).trans (noteSafety _ _ _)).trans (fireWrites _ _)

theorem fireSign (s : State) (reason : FireReason) (x : Option Proj) : Sound l s (s.fireSign reason x) := by
  unfold State.fireSign
  split
  · exact latchFire _ _ _
  · next hr =>
    split
    · exact refl _
    · exact (bsuOnly fun h => h.addReason hr _).trans (noteSafety _ _ _)

theorem raiseAlarm (s : State) (tag : Byte) : Sound l s (Machine.raiseAlarm tag s) := by
  unfold Machine.raiseAlarm
  split
  · split
    · exact answer _ _ _ _
    · exact (fireSign _ _ _).trans (answer _ _ _ _)
  · exact (fireSign _ _ _).trans (answer _ _ _ _)

theorem clearFire (s : State) (tag : Byte) : Sound l s (Machine.clearFire tag s) := by
  unfold Machine.clearFire State.clearFire
  split
  · exact answer _ _ _ _
  · split
    · exact answer _ _ _ _
    · exact (((bsuOnly fun h => h.unlatchFire).trans (note _ _)).trans (fireReleases _ _)).trans (answer _ _ _ _)

theorem estopSign (s : State) : Sound l s s.estopSign := by
  unfold State.estopSign
  split
  · exact refl _
  · exact ((bsuOnly fun h => h.latchEstop _).trans (emitAll _ _)).trans (noteSafety _ _ _)

theorem clearEstop (s : State) (tag : Byte) : Sound l s (Machine.clearEstop tag s) := by
  unfold Machine.clearEstop
  split
  · exact answer _ _ _ _
  · split
    · exact answer _ _ _ _
    · have hrec := (Bsu.Safe.clearRaised_fields Proj.all { s.bsu with estop := none }).1
      refine ((bsuOnly (fun h => h.unlatchEstop _) ?_ ?_ ?_ ?_).trans (noteSafety _ _ _)).trans
        (answer _ _ _ _) <;> rw [hrec] <;> simp

theorem raiseRefusal_none (h : s.raiseRefusal p = none) : s.bsu.fire = none := by
  unfold State.raiseRefusal at h
  simp only at h
  split_ifs at h with h1 h2
  simpa [State.fireLatched] using h2

theorem raiseShutter (s : State) (tag proj : Byte) : Sound l s (Machine.raiseShutter tag proj s) := by
  unfold Machine.raiseShutter
  split
  · exact answer _ _ _ _
  · split
    · exact answer _ _ _ _
    · next hr =>
      exact (moveShutter fun h => h.raise (raiseRefusal_none hr) _ _ _).trans (answer _ _ _ _)

theorem dropShutter (s : State) (tag proj : Byte) : Sound l s (Machine.dropShutter tag proj s) := by
  unfold Machine.dropShutter
  split
  · exact answer _ _ _ _
  · split
    · exact answer _ _ _ _
    · exact ((putDown _ _ _).trans (emit _ _)).trans (answer _ _ _ _)

theorem raiseExpiry (s : State) (p : Proj) : Sound l s (Machine.raiseExpiry p s) := by
  unfold Machine.raiseExpiry
  dsimp only
  split
  · exact (putDown _ _ _).trans (emit _ _)
  · exact refl _

theorem provingExpiry (s : State) : Sound l s (Machine.provingExpiry s) := by
  unfold Machine.provingExpiry
  split
  · exact (bsuOnly fun h => h.proven).trans (noteSafety _ _ _)
  · exact refl _

theorem lossExpiry (s : State) : Sound l s (Machine.lossExpiry s) := by
  unfold Machine.lossExpiry
  split
  · exact ((bsuOnly fun h => h.lost).trans (emitAll _ _)).trans (noteSafety _ _ _)
  · exact refl _

/-- R157, R160: a RAISING shutter, which stands up under no fire, reaches RAISED. -/
theorem completeRaise (hr : (s.bsu.shutters.get p).state = .raising) : Sound l s (s.completeRaise p) := by
  have hfire (h : s.bsu.Safe) : s.bsu.fire = none := by
    by_contra hn
    have := h.shut (Option.isSome_iff_ne_none.2 hn) p
    simp [hr] at this
  unfold State.completeRaise State.vetoAtRaised
  refine (moveShutter (new := .raised) (reason := none) fun h => h.raise (hfire h) p _ _).trans (bsuOnly fun h => ?_)
  split
  · exact h.setVeto p _
  · next he =>
    have hestop : s.bsu.estop = none := by simpa [State.estopLatched] using he
    refine h.clearVeto ?_ hestop p
    by_contra hn
    have := h.shut (Option.isSome_iff_ne_none.2 hn) p
    simp [State.moveShutter, Bsu.modShutter, Shutter.enter] at this

theorem linkParted (s : State) (p : Proj) : Sound l s (s.linkParted p) :=
  ((putDown _ _ _).trans (fireSign _ _ _)).trans (emit _ _)

/-! ### The switch-type inputs (R75, R76, R154) -/

theorem shutterReads (s : State) (p : Proj) (v : Option Bool) (x : List Bool)  :
    Sound [.shutterUp p] s (s.modBsu (·.modShutter p fun y => { y with up := v, upSamples := x })) :=
  modBsu (fun h => h.shutterSensor p v x)
    (fun q hq => by rw [Bsu.modShutter_ne _ _ (by rintro rfl; simp at hq)]; exact ⟨rfl, rfl⟩)
    (fun _ => ⟨rfl, rfl⟩) (fun _ => ⟨rfl, rfl⟩) (fun _ => ⟨rfl, rfl⟩)

theorem shutterLevel (s : State) (p : Proj) (v : Bool) :
    Accepts (.shutterUp p) v s (s.modBsu (·.modShutter p fun y => { y with up := some v })) :=
  ⟨shutterReads s p (some v) (s.bsu.shutters.get p).upSamples, by simp [State.samples, Bsu.modShutter],
    by simp [State.inputLevel, Bsu.modShutter]⟩

theorem fireReads (s : State) (v : Option Bool) (x : List Bool) :
    Sound [.fire] s (s.modBsu fun b => { b with fireInput := v, fireSamples := x }) :=
  modBsu (fun h => h.inputs _ _ _ _ _ _) (fun _ _ => ⟨rfl, rfl⟩) (absurd (by simp)) (fun _ => ⟨rfl, rfl⟩)
    (fun _ => ⟨rfl, rfl⟩)

theorem estopReads (s : State) (v : Option Bool) (x : List Bool) :
    Sound [.estop] s (s.modBsu fun b => { b with estopInput := v, estopSamples := x }) :=
  modBsu (fun h => h.inputs _ _ _ _ _ _) (fun _ _ => ⟨rfl, rfl⟩) (fun _ => ⟨rfl, rfl⟩) (absurd (by simp))
    (fun _ => ⟨rfl, rfl⟩)

theorem exhaustReads {f : Bsu → Bsu} (hf : s.bsu.Safe → (f s.bsu).Safe)
    (hs : (f s.bsu).shutters = s.bsu.shutters) (hi : (f s.bsu).fireSamples = s.bsu.fireSamples)
    (hi' : (f s.bsu).fireInput = s.bsu.fireInput) (he : (f s.bsu).estopSamples = s.bsu.estopSamples)
    (he' : (f s.bsu).estopInput = s.bsu.estopInput) : Sound [.exhaust] s (s.modBsu f) :=
  modBsu hf (fun _ _ => by rw [hs]; exact ⟨rfl, rfl⟩) (fun _ => ⟨hi, hi'⟩) (fun _ => ⟨he, he'⟩) (absurd (by simp))

theorem exhaustEdge (s : State) (v : Bool) : Accepts .exhaust v s (s.modBsu (·.exhaustEdge v)) := by
  refine ⟨exhaustReads (fun h => h.exhaustEdge v) ?_ ?_ ?_ ?_ ?_, ?_, ?_⟩ <;>
    (simp only [State.samples, State.inputLevel, State.modBsu_bsu, Bsu.exhaustEdge]; split <;> rfl)

theorem keepSamples (s : State) (h : List Bool) (i : SwitchInput) : Sound [i] s (s.keepSamples h i) := by
  cases i with
  | cueSensor p =>
    exact modTrm (f := fun t => { t with cueSamples := h }) (fun x => x.cueLevel _ h) (.inl (by simp))
      (.inr ⟨rfl, rfl⟩)
  | loopSwitch p =>
    exact modTrm (f := fun t => { t with loopSamples := h }) (fun x => x.loopLevel _ h)
      (.inr ⟨rfl, rfl⟩) (.inl (by simp))
  | shutterUp p => exact shutterReads s p (s.bsu.shutters.get p).up h
  | fire => exact fireReads s s.bsu.fireInput h
  | estop => exact estopReads s s.bsu.estopInput h
  | exhaust =>
    exact exhaustReads (f := fun b => { b with exhaustSamples := h }) (fun x => x.inputs _ _ _ _ _ h) rfl
      rfl rfl rfl rfl

theorem shutterSensorEdge (s : State) (p : Proj) (v : Bool) :
    Accepts (.shutterUp p) v s (Machine.shutterSensorEdge p v s) := by
  have hread := shutterLevel s p v
  unfold Machine.shutterSensorEdge
  dsimp only
  split
  · next hr => exact hread.andThen (completeRaise hr)
  · exact hread.andThen (linkParted _ _)
  · exact hread

theorem fireInputEdge (s : State) (v : Bool) : Accepts .fire v s (Machine.fireInputEdge v s) := by
  have hread : Accepts .fire v s (s.modBsu fun b => { b with fireInput := some v }) :=
    ⟨fireReads s (some v) s.bsu.fireSamples, rfl, rfl⟩
  unfold Machine.fireInputEdge
  dsimp only
  split
  · exact hread.andThen (fireSign _ _ _)
  · exact hread

theorem estopInputEdge (s : State) (v : Bool) : Accepts .estop v s (Machine.estopInputEdge v s) := by
  have hread : Accepts .estop v s (s.modBsu fun b => { b with estopInput := some v }) :=
    ⟨estopReads s (some v) s.bsu.estopSamples, rfl, rfl⟩
  unfold Machine.estopInputEdge
  dsimp only
  split
  · exact hread.andThen (estopSign _)
  · exact hread

theorem settle (s : State) (v : Bool) (i : SwitchInput) : Accepts i v s (s.settle v i) := by
  cases i with
  | cueSensor p => exact cueReads _ _ _
  | loopSwitch p => exact loopReads _ _ _
  | shutterUp p => exact shutterLevel _ _ _
  | fire => exact fireInputEdge _ _
  | estop => exact estopInputEdge _ _
  | exhaust =>
    exact ⟨exhaustReads (f := (·.settleExhaust v)) (fun x => x.settleExhaust v) rfl rfl rfl rfl rfl, rfl, rfl⟩

theorem inputEdge (s : State) (v : Bool) (i : SwitchInput) : Accepts i v s (s.inputEdge v i) := by
  cases i with
  | cueSensor p =>
    cases v
    · exact cueReads _ _ _
    · exact markEdge _ _
  | loopSwitch p =>
    cases v
    · exact loopOpens _ _
    · exact loopReads _ _ _
  | shutterUp p => exact shutterSensorEdge _ _ _
  | fire => exact fireInputEdge _ _
  | estop => exact estopInputEdge _ _
  | exhaust => exact exhaustEdge _ _

theorem cleanChange (s : State) (i : SwitchInput) (v : Bool) : Sound [i] s (s.cleanChange i v) :=
  (modPins _ _).trans (keepSamples _ _ _)

end Sound

/-! ### Every command -/

/-- From `s` to `t` every condition of the part's records is kept. -/
structure Keeps (s t : State) : Prop where
  pending : t.pending = s.pending
  cnl : s.cnl.Bounded → t.cnl.Bounded
  bsu : s.bsu.Safe → t.bsu.Safe
  trm : ∀ p, (s.trm.get p).Legal → (t.trm.get p).Legal
  alc : ∀ p, (s.alc.get p).Legal → (t.alc.get p).Legal
  screens : ∀ sc, (s.shc.get sc).Held → (t.shc.get sc).Held
  inputs : ∀ i, s.InputKept i → t.InputKept i

theorem inputKept_congr {i : SwitchInput} (h : t.samples i = s.samples i ∧ t.inputLevel i = s.inputLevel i)
    (hs : s.InputKept i) : t.InputKept i := by
  unfold State.InputKept
  rw [h.1, h.2]
  exact hs

theorem Sound.keeps (h : Sound [] s t) : Keeps s t :=
  ⟨h.pending, h.cnl, h.bsu, h.trm, h.alc, h.screens, fun i => inputKept_congr (h.inputs i (by simp))⟩

/-- A command that writes one input's samples or its level, as the samples say. -/
theorem Sound.keeps_of_input {i : SwitchInput} (h : Sound [i] s t) (hi : s.InputKept i → t.InputKept i) :
    Keeps s t := by
  refine ⟨h.pending, h.cnl, h.bsu, h.trm, h.alc, h.screens, fun j hj => ?_⟩
  by_cases e : j = i
  · subst e; exact hi hj
  · exact inputKept_congr (h.inputs j (by simpa using e)) hj

namespace Keeps

theorem refl (s : State) : Keeps s s := ⟨rfl, id, id, fun _ => id, fun _ => id, fun _ => id, fun _ => id⟩

theorem trans {u : State} (h : Keeps s t) (k : Keeps t u) : Keeps s u :=
  ⟨k.pending.trans h.pending, k.cnl ∘ h.cnl, k.bsu ∘ h.bsu, fun p => k.trm p ∘ h.trm p, fun p => k.alc p ∘ h.alc p,
    fun sc => k.screens sc ∘ h.screens sc, fun i => k.inputs i ∘ h.inputs i⟩

/-- R75: a sample keeps the history of the last three and what is accepted of it. -/
theorem sampleInput (s : State) (i : SwitchInput) : Keeps s (s.sampleInput i) := by
  have hshift : s.InputKept i → (shiftIn (s.samples i) (s.pins.level i)).length ≤ 3 := fun h => by
    rw [shiftIn_length _ h.1]; omega
  have hkept {t : State} {h : List Bool} (hl : h.length ≤ 3) (hs : t.samples i = h)
      (hv : t.inputLevel i = accepted h) : t.InputKept i := by
    refine ⟨by rw [hs]; exact hl, fun hshort => ?_, fun a b c habc => ?_⟩
    · rw [hv]; exact accepted_short (by rwa [hs] at hshort)
    · rw [hv, ← hs, habc, accepted_three]
  have haccept {v : Bool} {t : State} (hv : accepted (shiftIn (s.samples i) (s.pins.level i)) = some v)
      (h : Accepts i v (s.keepSamples (shiftIn (s.samples i) (s.pins.level i)) i) t) : Keeps s t :=
    ((Sound.keepSamples s _ i).trans h.sound).keeps_of_input fun hk =>
      hkept (hshift hk) (h.samples.trans (State.keepSamples_samples _ _ _)) (h.level.trans hv.symm)
  obtain ⟨hnone, he⟩ | ⟨v, hv, -, he⟩ | ⟨v, hv, hold, he⟩ | ⟨v, old, hv, -, -, he⟩ := sampleInput_spec s i <;> rw [he]
  · refine (Sound.keepSamples _ _ _).keeps_of_input fun hk => ?_
    refine hkept (hshift hk) (State.keepSamples_samples _ _ _) ?_
    rw [State.keepSamples_inputLevel, hnone]
    refine hk.2.1 (Nat.lt_of_le_of_ne hk.1 fun hthree => ?_)
    obtain ⟨a, b, c, habc⟩ := List.length_eq_three.1 hthree
    rw [habc, shiftIn_three, accepted_three] at hnone
    cases hnone
  · exact haccept hv (Sound.settle _ _ _)
  · refine (Sound.keepSamples _ _ _).keeps_of_input fun hk => ?_
    refine hkept (hshift hk) (State.keepSamples_samples _ _ _) ?_
    rw [State.keepSamples_inputLevel, hold, hv]
  · exact haccept hv (Sound.inputEdge _ _ _)

theorem sampleInputs (s : State) (is : List SwitchInput) : Keeps s (s.sampleInputs is) := by
  induction is generalizing s with
  | nil => exact refl _
  | cons i is ih => exact (sampleInput s i).trans (ih _)

/-- An edge given as a command has a clean change behind it (log entry 23). -/
theorem edge {i : SwitchInput} {v : Bool} (h : Accepts i v (s.cleanChange i v) t) : Keeps s t := by
  refine ((Sound.cleanChange s i v).trans h.sound).keeps_of_input fun _ => ?_
  have hsamples := h.samples.trans (State.cleanChange_spec s i v).2.1
  unfold State.InputKept
  rw [hsamples, h.level]
  refine ⟨Nat.le_refl 3, fun x => absurd x (by simp), fun a b c habc => ?_⟩
  simp only [List.cons.injEq, and_true] at habc
  obtain ⟨rfl, rfl, rfl⟩ := habc
  cases v <;> rfl

theorem inputSettling (s : State) (i : SwitchInput) (a b c : Bool) : Keeps s (Machine.inputSettling i a b c s) := by
  unfold Machine.inputSettling
  split
  · have hsettle := Sound.settle ((s.modPins (·.setLevel c i)).keepSamples [a, b, c] i) (majority a b c) i
    refine (((Sound.modPins _ _).trans (Sound.keepSamples _ _ _)).trans hsettle.sound).keeps_of_input fun _ => ?_
    unfold State.InputKept
    rw [hsettle.samples, hsettle.level, State.keepSamples_samples]
    refine ⟨Nat.le_refl 3, fun x => absurd x (by simp), fun a' b' c' habc => ?_⟩
    obtain ⟨rfl, rfl, rfl⟩ : a = a' ∧ b = b' ∧ c = c' := by simpa using habc
    rfl
  · exact refl _

end Keeps

end Sys2Proof.Machine
end

section
namespace Sys2Proof.Machine

variable {l : List SwitchInput} {s t : State}

/-! ## The Console Link's queues stay within their places (chapter 9) -/

namespace Cnl.Bounded

variable {c : Cnl}

/-- What is no queue of the record, nor its lost count, is no part of its bounds. -/
theorem congr {d : Cnl} (h : c.Bounded) (hi : d.inbound = c.inbound := by rfl) (hr : d.replies = c.replies := by rfl)
    (hv : d.reserved = c.reserved := by rfl) (hn : d.notices = c.notices := by rfl)
    (hl : d.lost = c.lost := by rfl) : d.Bounded := by
  unfold Cnl.Bounded
  rw [hi, hr, hv, hn, hl]
  exact h

theorem own (h : c.Bounded) (r : Reply) : (c.own r).Bounded := by
  obtain ⟨hin, hrep, hnot, hlost⟩ := h
  unfold Cnl.own
  split
  · next hroom =>
    have hroom : c.replies.length + c.reserved < 4 := of_decide_eq_true hroom
    exact ⟨hin, by simp; omega, hnot, hlost⟩
  · exact ⟨hin, hrep, hnot, hlost⟩

theorem hunt (h : c.Bounded) : c.hunt.Bounded := h.congr

theorem complete (h : c.Bounded) (len : Byte) (bytes : List Byte) : (c.complete len bytes).Bounded := by
  unfold Cnl.complete
  dsimp only
  split
  · split
    · split
      · next hroom =>
        obtain ⟨-, hrep, hnot, hlost⟩ := h
        have hroom : c.inbound.length < 4 := hroom
        exact ⟨by simp [Cnl.hunt]; omega, hrep, hnot, hlost⟩
      · exact h.hunt.own _
    · exact h.hunt
  · exact h.hunt.own _

theorem receive (h : c.Bounded) (byte : Byte) : (c.receive byte).Bounded := by
  unfold Cnl.receive
  split
  · exact h
  · split
    · exact h.congr
    · exact h
  · split
    · exact h.hunt
    · unfold Cnl.lenByte
      split_ifs <;> exact h.congr
    · unfold Cnl.keepByte
      split
      · exact h.complete _ _
      · exact h.congr

theorem framingError (h : c.Bounded) : c.framingError.Bounded := by
  unfold Cnl.framingError
  split
  · exact h.hunt
  · exact h

/-- R182: NOTICES LOST finds its place where one has been freed. -/
theorem placeFreed (h : c.Bounded) (hfree : c.notices.length < 32) (time : Nat) : (c.placeFreed time).Bounded := by
  unfold Cnl.placeFreed
  split
  · exact h
  · obtain ⟨hin, hrep, -, -⟩ := h
    exact ⟨hin, hrep, by simp; omega, Nat.zero_le _⟩

theorem byteSent (h : c.Bounded) : c.byteSent.Bounded := by
  unfold Cnl.byteSent
  split
  · exact h
  · exact h.congr

theorem lostAfter_le (n : Nat) (x : Notice) : lostAfter n x ≤ 255 := by
  unfold lostAfter
  split <;> omega

end Cnl.Bounded

/-! ## Resets (R187 to R189) -/

/-- A state whose records have their reset values meets every condition. -/
theorem keeps_of_reset (hp : t.pending = s.pending) (hc : t.cnl.Bounded) (hb : t.bsu = Bsu.reset)
    (ht : t.trm = Oct.const Trm.reset) (ha : t.alc = Oct.const Alc.reset) (hs : t.shc = Quad.const Shc.reset) :
    Keeps s t where
  pending := hp
  cnl _ := hc
  bsu _ := hb ▸ Bsu.Safe.reset
  trm p _ := by rw [ht, Oct.get_const]; exact Trm.Legal.reset
  alc p _ := by rw [ha, Oct.get_const]; exact Alc.Legal.reset
  screens sc _ := by rw [hs, Quad.get_const]; exact Shc.held_reset
  inputs i _ := by
    cases i <;>
      simp [State.InputKept, State.samples, State.inputLevel, hb, ht, Trm.reset, Bsu.reset, Shutter.reset]

theorem makeReset_keeps (s : State) : Keeps s s.makeReset :=
  keeps_of_reset rfl ⟨Nat.zero_le _, Nat.zero_le _, by simp [State.makeReset, Cnl.reset], Nat.zero_le _⟩ rfl rfl rfl rfl

namespace Keeps

theorem resetIfDone (s : State) (r : Reply) : Keeps s (s.resetIfDone r) := by
  unfold State.resetIfDone
  split
  · exact makeReset_keeps _
  · exact refl _

theorem modCnl {f : Cnl → Cnl} (hf : s.cnl.Bounded → (f s.cnl).Bounded) : Keeps s (s.modCnl f) :=
  (Sound.modCnl hf).keeps

theorem powerOn (s : State) (straps : Straps) :
    Keeps s { State.poweredOn (s.strapped straps).pins with pending := s.pending } :=
  keeps_of_reset rfl ⟨Nat.zero_le _, Nat.zero_le _, by simp [State.poweredOn, Cnl.reset], Nat.zero_le _⟩ rfl rfl rfl rfl

theorem boothResetMade (s : State) (straps : Straps) : Keeps s (s.strapped straps).makeReset :=
  (Sound.modPins _ _).keeps.trans (makeReset_keeps _)

/-- R181: a reply whose SUM byte has been sent leaves its place. -/
theorem replyGone {r : Reply} {rest : List Reply} (hr : s.cnl.replies = r :: rest) :
    Keeps s (((s.modCnl fun c => { c with tx := none }).modCnl fun c => { c with replies := rest }).resetIfDone r) := by
  refine ((modCnl fun h => h.congr).trans (modCnl fun h => ?_)).trans (resetIfDone _ _)
  obtain ⟨hin, hrep, hnot, hlost⟩ := h
  refine ⟨hin, ?_, hnot, hlost⟩
  simp [hr] at hrep ⊢
  omega

theorem abandon (s : State) : Keeps s s.abandon := by
  have hidle : Keeps s (s.modCnl fun c => { c with tx := none }) := modCnl fun h => h.congr
  unfold State.abandon
  split
  · exact refl _
  · dsimp only
    split
    · split
      · exact hidle
      · next hr => exact replyGone hr
    · split
      · exact hidle
      · next n rest hn =>
        refine hidle.trans (modCnl fun h => ?_)
        obtain ⟨hin, hrep, hnot, -⟩ := h
        simp at hn
        simp [hn] at hnot
        refine Cnl.Bounded.placeFreed ?_ ?_ _
        · exact ⟨hin, hrep, Nat.le_of_lt hnot, Cnl.Bounded.lostAfter_le _ _⟩
        · exact hnot

theorem linkReset (s : State) : Keeps s s.linkReset := by
  refine Keeps.trans (Keeps.trans (modCnl fun h => ?_) (abandon _)) (modCnl fun h => h.congr)
  exact ⟨Nat.zero_le _, h.2⟩

theorem lineBreak (s : State) : Keeps s (Machine.lineBreak (s.lineAt false)) := by
  have hpin : Keeps s (s.lineAt false) := (Sound.modPins _ _).keeps
  unfold Machine.lineBreak
  split
  · exact hpin
  · exact hpin.trans (linkReset _)

theorem frameSent (s : State) : Keeps s (Machine.frameSent s) := by
  have hidle : Keeps s (s.modCnl fun c => { c with tx := none }) := modCnl fun h => h.congr
  unfold Machine.frameSent
  split
  · exact refl _
  · dsimp only
    split
    · split
      · exact hidle
      · next hr => exact replyGone hr
    · refine hidle.trans (modCnl fun h => ?_)
      obtain ⟨hin, hrep, hnot, hlost⟩ := h
      have htail : s.cnl.notices.tail.length < 32 := by
        simp at hnot ⊢
        omega
      refine Cnl.Bounded.placeFreed ?_ ?_ _
      · exact ⟨hin, hrep, Nat.le_of_lt htail, hlost⟩
      · exact htail

theorem takeFrame (s : State) : Keeps s (Machine.takeFrame s) := by
  unfold Machine.takeFrame
  split
  · exact refl _
  · next f rest hf =>
    split
    · next hroom =>
      have hroom : s.cnl.replies.length + s.cnl.reserved < 4 := of_decide_eq_true hroom.1
      have htake : Keeps s (s.modCnl fun c => { c with inbound := rest }) := modCnl fun h => by
        obtain ⟨hin, hrest⟩ := h
        simp [hf] at hin
        exact ⟨Nat.le_of_lt hin, hrest⟩
      unfold State.decide
      split
      · exact htake.trans (modCnl fun h => h.own _)
      · exact htake.trans (modCnl fun h => h.own _)
      · refine (htake.trans (modCnl fun h => ?_)).trans (Sound.emit _ _).keeps
        exact ⟨h.1, by simp; omega, h.2.2⟩
    · exact refl _

end Keeps

namespace Sound

theorem boothReset (s : State) (tag force : Byte) : Sound l s (Machine.boothReset tag force s) := by
  unfold Machine.boothReset
  split
  · exact answer _ _ _ _
  · split
    · exact answer _ _ _ _
    · exact (modCnl fun h => h.congr).trans (answer _ _ _ _)

theorem quiet (s : State) (tag setting : Byte) : Sound l s (Machine.quiet tag setting s) := by
  unfold Machine.quiet
  split
  · exact answer _ _ _ _
  · split
    · exact answer _ _ _ _
    · exact (modCnl fun h => h.congr).trans (answer _ _ _ _)

theorem tellShcs (s : State) (e : Screen → Instr) : Sound l s (s.tellShcs e) := emitAll _ _

theorem partReply (s : State) (kind tag part : Byte) (data : Option (List Byte)) :
    Sound l s (Machine.partReply kind tag part data s) := by
  unfold Machine.partReply
  split
  · exact reply _ _ _ _ _ _
  · exact answer _ _ _ _

theorem readScreen (s : State) (tag screen part : Byte) : Sound l s (Machine.readScreen tag screen part s) := by
  unfold Machine.readScreen
  split
  · exact answer _ _ _ _
  · exact partReply _ _ _ _ _

theorem readProjector (s : State) (tag proj : Byte) : Sound l s (Machine.readProjector tag proj s) := by
  unfold Machine.readProjector
  split
  · exact answer _ _ _ _
  · exact (reply _ _ _ _ _ _).trans (trmOnly fun h => h.clearStray)

theorem readLamp (s : State) (tag lamp part : Byte) : Sound l s (Machine.readLamp tag lamp part s) := by
  unfold Machine.readLamp
  split
  · exact answer _ _ _ _
  · exact partReply _ _ _ _ _

theorem readAuditorium (s : State) (tag aud part : Byte) : Sound l s (Machine.readAuditorium tag aud part s) := by
  unfold Machine.readAuditorium
  split
  · exact answer _ _ _ _
  · exact partReply _ _ _ _ _

theorem readEntry (s : State) (tag screen bank index : Byte) :
    Sound l s (Machine.readEntry tag screen bank index s) := by
  unfold Machine.readEntry
  split
  · exact reply _ _ _ _ _ _
  · exact answer _ _ _ _

/-! ### House lights and mains (chapter 7) -/

theorem setPreset (s : State) (tag aud preset house aisle stage : Byte) (fade : Half) :
    Sound l s (Machine.setPreset tag aud preset house aisle stage fade s) := by
  unfold Machine.setPreset
  split
  · exact (modHlc _ _ _).trans (answerSet _ _ _ _ _)
  · exact answerSet _ _ _ _ _

theorem setAuditorium (s : State) (tag aud floor : Byte) : Sound l s (Machine.setAuditorium tag aud floor s) := by
  unfold Machine.setAuditorium
  split
  · exact (modHlc _ _ _).trans (answerSet _ _ _ _ _)
  · exact answerSet _ _ _ _ _

theorem setLights (s : State) (tag aud mode preset house aisle stage : Byte) (fade : Half) :
    Sound l s (Machine.setLights tag aud mode preset house aisle stage fade s) := by
  unfold Machine.setLights
  split
  · exact answerSet _ _ _ _ _
  · split
    · exact answerSet _ _ _ _ _
    · exact (changeRank _ _ _ _).trans (answerSet _ _ _ _ _)

theorem releaseLights (s : State) (tag aud : Byte) : Sound l s (Machine.releaseLights tag aud s) := by
  unfold Machine.releaseLights
  split
  · exact answer _ _ _ _
  · split
    · exact (changeRank _ _ _ _).trans (answer _ _ _ _)
    · exact answer _ _ _ _

theorem mainsInterval (s : State) (n : Nat) : Sound l s (Machine.mainsInterval n s) := by
  unfold Machine.mainsInterval
  dsimp only
  split
  · split
    · exact (modMpt _ _).trans (emitAll _ _)
    · exact ((modMpt _ _).trans (emitAll _ _)).trans (note _ _)
  · split
    · exact (((modMpt _ _).trans (emitAll _ _)).trans (note _ _)).trans (emitAll _ _)
    · exact modMpt _ _

theorem zeroCross (s : State) (time : Nat) : Sound l s (Machine.zeroCross time s) := by
  unfold Machine.zeroCross
  split
  · exact modMpt _ _
  · exact (modMpt _ _).trans (mainsInterval _ _)

theorem silence (s : State) : Sound l s (Machine.silence s) := by
  unfold Machine.silence
  dsimp only
  split
  · split
    · exact ((modMpt _ _).trans (emitAll _ _)).trans (note _ _)
    · exact modMpt _ _
  · exact refl _

theorem setScreen (s : State) (tag screen : Byte) (x : ScreenFields) :
    Sound l s (Machine.setScreen tag screen x s) := by
  unfold Machine.setScreen
  split
  · exact answerSet _ _ _ _ _
  · dsimp only
    split
    · exact answerSet _ _ _ _ _
    · split
      · exact answerSet _ _ _ _ _
      · exact (modShc fun h => h.same).trans (answerSet _ _ _ _ _)

/-! ### Requests of a screen, by the screen they name -/

/-- A request that names a screen is that screen's; one that names none is answered NO SUCH. -/
theorem of_screen {screen : Byte} {f : State → State} (s : State)
    (hnone : screenOf screen = none → Sound l s (f s))
    (hsome : ∀ sc, screenOf screen = some sc → Answers sc s (f s))
    (hkept : ∀ sc, screenOf screen = some sc → (s.shc.get sc).HaltKept → ((f s).shc.get sc).HaltKept) :
    Sound l s (f s) := by
  cases hs : screenOf screen with
  | none => exact hnone hs
  | some sc => exact of_answers (hsome sc hs) (hkept sc hs)

theorem confirmRequest (s : State) (tag screen bank index confirm : Byte) :
    Sound l s (Machine.confirmRequest tag screen bank index confirm s) :=
  of_screen (screen := screen) s (fun h => by simp only [Machine.confirmRequest, h]; exact answer _ _ _ _)
    (fun _ h => (Moves.refl s).confirmRequest h _ _ _ _) fun _ h => Held.confirmRequest h _ _ _

/-! ## The command, whatever it is -/

/-- Every command completes and keeps every condition of the part's records. -/
theorem exec_keeps (i : Instr) (s : State) : ∃ t, exec i s = .next t ∧ Keeps s t := by
  have screenEvent {sc : Screen} {t : State} (e : Instr) (h : Moves sc (s.taken e) t)
      (hk : ((s.taken e).shc.get sc).HaltKept → (t.shc.get sc).HaltKept) : Keeps s t :=
    ((taken s e).trans (of_moves h hk)).keeps
  have request {t : State} (e : Instr) (h : Sound [] (s.taken e) t) : Keeps s t := ((taken s e).trans h).keeps
  have byScreen {screen : Byte} {f : State → State} (e : Instr)
      (hnone : screenOf screen = none → Sound [] (s.taken e) (f (s.taken e)))
      (hsome : ∀ sc, screenOf screen = some sc → Answers sc (s.taken e) (f (s.taken e)))
      (hkept : ∀ sc, screenOf screen = some sc → ((s.taken e).shc.get sc).HaltKept →
        ((f (s.taken e)).shc.get sc).HaltKept) : Keeps s (f (s.taken e)) :=
    request e (of_screen _ hnone hsome hkept)
  cases i with
  | powerOn straps => exact ⟨_, rfl, .powerOn s straps⟩
  | boothReset tag force => exact ⟨_, rfl, request _ (boothReset _ _ _)⟩
  | boothResetMade straps => exact ⟨_, rfl, .boothResetMade s straps⟩
  | identify tag => exact ⟨_, rfl, request _ (reply _ _ _ _ _ _)⟩
  | quiet tag setting => exact ⟨_, rfl, request _ (quiet _ _ _)⟩
  | setClock tag time => exact ⟨_, rfl, request _ (((modBck _ _).trans (tellShcs _ _)).trans (reply _ _ _ _ _ _))⟩
  | readClock tag => exact ⟨_, rfl, request _ (reply _ _ _ _ _ _)⟩
  | setScreen tag screen fields => exact ⟨_, rfl, request _ (setScreen _ _ _ _)⟩
  | setLamp tag lamp fields => exact ⟨_, rfl, request _ (setLamp _ _ _ _)⟩
  | setAuditorium tag aud floor => exact ⟨_, rfl, request _ (setAuditorium _ _ _ _)⟩
  | setPreset tag aud preset house aisle stage fade => exact ⟨_, rfl, request _ (setPreset _ _ _ _ _ _ _ _)⟩
  | writeEntry tag screen index kind area =>
    exact ⟨_, rfl, byScreen (screen := screen) _ (fun h => by simp only [writeEntry, h]; exact answer _ _ _ _)
      (fun _ h => (Moves.refl _).writeEntry h _ _ _ _) fun _ h => Held.writeEntry h _ _ _⟩
  | clearStaged tag screen =>
    exact ⟨_, rfl, byScreen (screen := screen) _ (fun h => by simp only [clearStaged, h]; exact answer _ _ _ _)
      (fun _ h => (Moves.refl _).clearStaged h _) fun _ h => Held.clearStaged h⟩
  | readEntry tag screen bank index => exact ⟨_, rfl, request _ (readEntry _ _ _ _ _)⟩
  | switchProgramme tag screen t0 tc np =>
    exact ⟨_, rfl, byScreen (screen := screen) _ (fun h => by simp only [switchProgramme, h]; exact answer _ _ _ _)
      (fun _ h => (Moves.refl _).switchProgramme h _ _ _ _) fun _ h => Held.switchProgramme h _ _ _⟩
  | cancelSwitch tag screen =>
    exact ⟨_, rfl, byScreen (screen := screen) _ (fun h => by simp only [cancelSwitch, h]; exact answer _ _ _ _)
      (fun _ h => (Moves.refl _).cancelSwitch h _) fun _ h => Held.cancelSwitch h⟩
  | confirmReel tag screen bank index confirm => exact ⟨_, rfl, request _ (confirmRequest _ _ _ _ _ _)⟩
  | withdrawConfirmation tag screen bank index => exact ⟨_, rfl, request _ (confirmRequest _ _ _ _ _ _)⟩
  | start tag screen =>
    exact ⟨_, rfl, byScreen (screen := screen) _ (fun h => by simp only [Machine.start, h]; exact answer _ _ _ _)
      (fun _ h => (Moves.refl _).start h _) fun _ h => Held.start h⟩
  | resume tag screen =>
    exact ⟨_, rfl, byScreen (screen := screen) _ (fun h => by simp only [resume, h]; exact answer _ _ _ _)
      (fun _ h => (Moves.refl _).resume h _) fun _ h => Held.resume h⟩
  | abort tag screen =>
    exact ⟨_, rfl, byScreen (screen := screen) _ (fun h => by simp only [abort, h]; exact answer _ _ _ _)
      (fun _ h => (Moves.refl _).abortRequest h _) fun _ h => Held.abortRequest h⟩
  | changeNow tag screen =>
    exact ⟨_, rfl, byScreen (screen := screen) _ (fun h => by simp only [changeNow, h]; exact answer _ _ _ _)
      (fun _ h => (Moves.refl _).changeNow h _) fun _ h => Held.changeNow h⟩
  | strike asker => exact ⟨_, rfl, request _ (strike _ _)⟩
  | extinguish asker => exact ⟨_, rfl, request _ (extinguish _ _)⟩
  | setTrim tag lamp length => exact ⟨_, rfl, request _ (setTrim _ _ _ _)⟩
  | setLights tag aud mode preset house aisle stage fade =>
    exact ⟨_, rfl, request _ (setLights _ _ _ _ _ _ _ _ _)⟩
  | releaseLights tag aud => exact ⟨_, rfl, request _ (releaseLights _ _ _)⟩
  | raiseShutter tag proj => exact ⟨_, rfl, request _ (raiseShutter _ _ _)⟩
  | dropShutter tag proj => exact ⟨_, rfl, request _ (dropShutter _ _ _)⟩
  | raiseAlarm tag => exact ⟨_, rfl, request _ (raiseAlarm _ _)⟩
  | clearFire tag => exact ⟨_, rfl, request _ (clearFire _ _)⟩
  | clearEstop tag => exact ⟨_, rfl, request _ (clearEstop _ _)⟩
  | readScreen tag screen part => exact ⟨_, rfl, request _ (readScreen _ _ _ _)⟩
  | readProjector tag proj => exact ⟨_, rfl, request _ (readProjector _ _ _)⟩
  | readLamp tag lamp part => exact ⟨_, rfl, request _ (readLamp _ _ _ _)⟩
  | readAuditorium tag aud part => exact ⟨_, rfl, request _ (readAuditorium _ _ _ _)⟩
  | readSafety tag part => exact ⟨_, rfl, request _ (partReply _ _ _ _ _)⟩
  | byteReceived byte stop =>
    refine ⟨_, rfl, .modCnl fun h => ?_⟩
    split
    · exact h.receive _
    · exact h.framingError
  | gapTimerExpiry =>
    refine ⟨_, rfl, .modCnl fun h => ?_⟩
    split
    · exact h.hunt
    · exact h
  | lineBreak => exact ⟨_, rfl, .lineBreak s⟩
  | lineReturnsToMark =>
    refine ⟨_, rfl, (modPins _ _).keeps.trans (.modCnl fun h => ?_)⟩
    split
    · exact h.congr
    · exact h
  | takeFrame => exact ⟨_, rfl, .takeFrame s⟩
  | frameStart =>
    refine ⟨_, rfl, .modCnl fun h => ?_⟩
    split
    · exact h
    · exact h.congr
  | frameSent => exact ⟨_, rfl, .frameSent s⟩
  | secondTimerExpiry => exact ⟨_, rfl, ((modBck _ _).trans (tellShcs _ _)).keeps⟩
  | boothSecondEvent sc time => exact ⟨_, rfl, screenEvent _ ((Moves.refl _).boothSecond _) (Held.boothSecond _)⟩
  | clockSetEvent sc old new =>
      exact ⟨_, rfl, screenEvent _ ((Moves.refl _).clockSet _ _) (((SameHalt.refl _).clockSet _ _).kept)⟩
  | motorOnCommand p => exact ⟨_, rfl, request _ (motorOnCommand _ _)⟩
  | motorStop p => exact ⟨_, rfl, request _ (stopMotor _ _)⟩
  | cueWindowOpen p cue centre => exact ⟨_, rfl, request _ (openWindow _ _ _)⟩
  | cueWindowClose p => exact ⟨_, rfl, request _ (setWindow _ _ _)⟩
  | tachPulse p time => exact ⟨_, rfl, (tachPulse _ _ _).keeps⟩
  | markEdge p => exact ⟨_, rfl, .edge (markEdge _ _)⟩
  | loopOpeningEdge p => exact ⟨_, rfl, .edge (loopOpens _ _)⟩
  | loopClosingEdge p => exact ⟨_, rfl, .edge (loopReads _ _ _)⟩
  | runUpTimerExpiry p => exact ⟨_, rfl, (runUpExpiry _ _).keeps⟩
  | stallTimerExpiry p => exact ⟨_, rfl, (stallExpiry _ _).keeps⟩
  | atSpeedEvent p count => exact ⟨_, rfl, screenEvent _ (Moves.refl _).atSpeedSeen Held.atSpeedSeen⟩
  | cueFiredEvent p cue how count =>
      exact ⟨_, rfl, screenEvent _ ((Moves.refl _).cueFired _ _) (((SameHalt.refl _).cueFired _ _).kept)⟩
  | pictureEndReached p count => exact ⟨_, rfl, screenEvent _ (Moves.refl _).pictureEnded Held.pictureEnded⟩
  | runoutReached p count => exact ⟨_, rfl, screenEvent _ (Moves.refl _).runoutSeen Held.runoutSeen⟩
  | runUpFail p count => exact ⟨_, rfl, screenEvent _ ((Moves.refl _).fault _ _ _ _) (Held.fault _ _ _ _)⟩
  | lampStateChange p new old cause =>
      exact ⟨_, rfl, screenEvent _ ((Moves.refl _).lampChanged _ _) (Held.lampChanged _ _)⟩
  | setTrimAccepted p => exact ⟨_, rfl, screenEvent _ (Moves.refl _).evaluate (SameHalt.refl _).evaluate.kept⟩
  | filmBreak p count => exact ⟨_, rfl, request _ (breakAt _ _ _ _)⟩
  | stall p count => exact ⟨_, rfl, request _ (breakAt _ _ _ _)⟩
  | refusedStart p => exact ⟨_, rfl, request _ (emit _ _)⟩
  | breakOrStallEvent p kind count => exact ⟨_, rfl, screenEvent _ ((Moves.refl _).fault _ _ _ _) (Held.fault _ _ _ _)⟩
  | shutterDropped p reason => exact ⟨_, rfl, screenEvent _ ((Moves.refl _).fault _ _ _ _) (Held.fault _ _ _ _)⟩
  | fireEvent sc => exact ⟨_, rfl, screenEvent _ ((Moves.refl _).fault _ _ _ _) (Held.fault _ _ _ _)⟩
  | emergencyStopEvent sc => exact ⟨_, rfl, screenEvent _ ((Moves.refl _).fault _ _ _ _) (Held.fault _ _ _ _)⟩
  | arcSample p vm im => exact ⟨_, rfl, (arcSample _ _ _ _).keeps⟩
  | strikerTimerExpiry p => exact ⟨_, rfl, (modAlc fun h => h.stopStriker).keeps⟩
  | attemptTimerExpiry p => exact ⟨_, rfl, (attemptExpiry _ _).keeps⟩
  | coolOffTimerExpiry p => exact ⟨_, rfl, (coolOffExpiry _ _).keeps⟩
  | bsuExtinguish p reason => exact ⟨_, rfl, request _ (putOut _ _ _)⟩
  | post sc rank preset => exact ⟨_, rfl, request _ (changeRank _ _ _ _)⟩
  | haltRelease sc => exact ⟨_, rfl, request _ (changeRank _ _ _ _)⟩
  | fireWrite sc => exact ⟨_, rfl, request _ (changeRank _ _ _ _)⟩
  | fireRelease sc => exact ⟨_, rfl, request _ (changeRank _ _ _ _)⟩
  | fadeTick sc => exact ⟨_, rfl, (modHlc _ _ _).keeps⟩
  | zeroCrossPulse time => exact ⟨_, rfl, (zeroCross _ _).keeps⟩
  | silenceTimerExpiry => exact ⟨_, rfl, (silence _).keeps⟩
  | lockChange sc locked =>
    refine ⟨_, rfl, request (.lockChange sc locked) ?_⟩
    split
    · exact Sound.refl _
    · exact modHlc _ _ _
  | halfCycleEvent sc halfPeriod => exact ⟨_, rfl, request _ (modHlc _ _ _)⟩
  | firingTimerExpiry sc ch => exact ⟨_, rfl, (modHlc _ _ _).keeps⟩
  | fireInputEdge asserted => exact ⟨_, rfl, .edge (fireInputEdge _ _)⟩
  | emergencyStopInputEdge asserted => exact ⟨_, rfl, .edge (estopInputEdge _ _)⟩
  | exhaustProvingEdge proven => exact ⟨_, rfl, .edge (exhaustEdge _ _)⟩
  | shutterUpSensorEdge p up => exact ⟨_, rfl, .edge (shutterSensorEdge _ _ _)⟩
  | provingTimerExpiry => exact ⟨_, rfl, (provingExpiry _).keeps⟩
  | lossTimerExpiry => exact ⟨_, rfl, (lossExpiry _).keeps⟩
  | raiseTimerExpiry p => exact ⟨_, rfl, (raiseExpiry _ _).keeps⟩
  | inputSettling input s1 s2 s3 => exact ⟨_, rfl, .inputSettling _ _ _ _ _⟩
  | cueSensorClearEdge p => exact ⟨_, rfl, .edge (cueReads _ _ _)⟩

end Sound

/-- Every step keeps every condition of the part's records; taking a command off the queue touches none of them. -/
theorem step_keeps (h : step s = .next t) : ∃ s', s'.cnl = s.cnl ∧ s'.bsu = s.bsu ∧ s'.trm = s.trm ∧ s'.alc = s.alc ∧
    s'.shc = s.shc ∧ Keeps s' t := by
  have run {i : Instr} {s' : State} (h : exec i s' = .next t) : Keeps s' t := by
    obtain ⟨u, hu, hk⟩ := Sound.exec_keeps i s'
    cases hu.symm.trans h
    exact hk
  unfold step at h
  split at h
  · next c rest _ => exact ⟨{ s with pending := rest }, rfl, rfl, rfl, rfl, rfl, run h⟩
  · split at h
    · exact ⟨s, rfl, rfl, rfl, rfl, rfl, run h⟩
    · cases h
      exact ⟨s, rfl, rfl, rfl, rfl, rfl, (Keeps.sampleInputs _ _).trans (.modCnl fun x => x.byteSent)⟩

/-- Settles O2: the queue of commands is one of the conditions that every command keeps. -/
theorem everyCommandCompletes : Obligations.EveryCommandCompletes := fun c s => by
  obtain ⟨t, ht, hk⟩ := Sound.exec_keeps c s
  exact ⟨t, ht, hk.pending⟩

/-- Settles O9: the bounds are kept by every step; a notice and a reply find their places as their operations
say. -/
theorem queuesStayWithinTheirPlaces : Obligations.QueuesStayWithinTheirPlaces := by
  refine ⟨fun s t hs h => ?_, fun c n r => ⟨?_, ?_, ?_, ?_, ?_⟩⟩
  · obtain ⟨s', hc, -, -, -, -, hk⟩ := step_keeps h
    exact hk.cnl (hc ▸ hs)
  · intro hl; exact if_pos hl
  · intro hl; exact if_neg (Nat.not_lt.2 hl)
  · intro hv; exact if_pos hv
  · intro hv hl; exact (if_neg (by omega)).trans (if_pos hl)
  · intro hv hl; exact (if_neg (by omega)).trans (if_neg (Nat.not_lt.2 hl))

/-- Settles O47: legality is kept by every step, and a legal lamp's outputs are read off its record. -/
theorem transportsAndLampsStayLegal : Obligations.TransportsAndLampsStayLegal := by
  refine ⟨fun s t p hs h => ?_, fun s t p hs h => ?_⟩
  · obtain ⟨s', -, -, ht, -, -, hk⟩ := step_keeps h
    exact hk.trm p (ht ▸ hs)
  · obtain ⟨s', -, -, -, ha, -, hk⟩ := step_keeps h
    have hlegal := hk.alc p (ha ▸ hs)
    refine ⟨hlegal, rfl, fun x => (hlegal.striker x).1, ?_⟩
    unfold Alc.contactor
    cases (t.alc.get p).state <;> simp [LampState.lit]

/-- Settles O57: what an input accepts follows its samples through every step. -/
theorem inputsFollowTheirSamples : Obligations.InputsFollowTheirSamples := by
  intro s t i hs h
  obtain ⟨s', -, hb, ht, -, -, hk⟩ := step_keeps h
  exact hk.inputs i (inputKept_congr (Sound.inputs_of_records ht hb i) hs)

/-- Settles O59: both conditions are among those every step keeps. -/
theorem haltRecordIsPresentExactlyInHalted : Obligations.HaltRecordIsPresentExactlyInHalted := by
  intro s t sc hhalt hbanks h
  obtain ⟨s', -, -, -, -, hs, hk⟩ := step_keeps h
  exact hk.screens sc (hs ▸ ⟨hhalt, hbanks⟩)

/-- R72: the douser gate is the conjunction of its six terms. -/
theorem douserOpen_iff (p : Proj) (s : State) : s.douserOpen p = true ↔
    (s.shc.get p.screen).douser p.side = true ∧ s.bsu.vetoes.get p = none ∧ (s.alc.get p).state = .stable ∧
    (s.trm.get p).state = .atSpeed ∧ (s.bsu.shutters.get p).state = .raised ∧ s.bsu.fire = none := by
  simp [State.douserOpen, State.douserCommand, State.vetoClear, State.lampStable, State.atSpeed, State.shutterRaised,
    State.fireLatched, and_assoc]

/-- Settles O58: booth safety is kept by every step, and a safe booth has a veto under either latch. -/
theorem boothSafetyHoldsAtEveryStep : Obligations.BoothSafetyHoldsAtEveryStep := by
  refine ⟨douserOpen_iff, fun s t hs h => ?_⟩
  obtain ⟨s', -, hb, -, -, -, hk⟩ := step_keeps h
  have hsafe := hk.bsu (hb ▸ hs)
  refine ⟨hsafe, fun p hp => ?_⟩
  obtain ⟨-, hveto, -, -, -, hfire⟩ := (douserOpen_iff p t).1 hp
  refine ⟨hfire, ?_⟩
  by_contra hlatched
  have := hsafe.vetoed (.inr (Option.isSome_iff_ne_none.2 hlatched)) p
  simp [hveto] at this

end Sys2Proof.Machine
end

section
namespace Sys2Proof.Machine

variable {sc : Screen} {s t : State}

/-! ## A screen's events and requests stay with the screen (00_scope, R25, R33, R78, R99) -/

/-- From `s` to `t` nothing has changed but what the screen owns, and the Console Link's two queues. -/
def Within (sc : Screen) (s t : State) : Prop := KeepsAllBut s t (screenParts sc) ∧ SameLine s.cnl t.cnl

theorem Moves.within (h : Moves sc s t) : Within sc s t := ⟨h.keeps, h.line⟩
theorem Answers.within (h : Answers sc s t) : Within sc s t := ⟨h.keeps, h.line⟩

theorem Within.taken {i : Instr} (h : Within sc (s.taken i) t) : Within sc s t :=
  ⟨((keeps_taken s i).mono (by simp [screenParts])).trans h.1, h.2⟩

theorem within_answerSet (h : KeepsAllBut s t (screenParts sc)) (hc : t.cnl = s.cnl) (kind tag : Byte) (r : Result)
    (adj : Bool) : Within sc s (t.answerSet kind tag r adj) :=
  ⟨h.trans ((keeps_reply _ _ _ _ _ _).mono (by simp [screenParts])), hc ▸ fill_line _ _⟩

/-- SET SCREEN writes the screen's own setup, or is answered alone. -/
theorem setScreen_within {screen : Byte} (hs : screenOf screen = some sc) (tag : Byte) (x : ScreenFields) (s : State) :
    Within sc s (setScreen tag screen x s) := by
  unfold setScreen
  rw [hs]
  dsimp only
  split
  · exact within_answerSet (KeepsAllBut.refl _ _) rfl _ _ _ _
  · split
    · exact within_answerSet (KeepsAllBut.refl _ _) rfl _ _ _ _
    · exact within_answerSet ((keeps_modShc _ _ _).mono (by simp [screenParts])) rfl _ _ _ _

/-- Settles O40: every one of these is a run of the screen's moves, an answered one, or SET SCREEN. -/
theorem screensDoNotDisturbOneAnother : Obligations.ScreensDoNotDisturbOneAnother := by
  intro sc p s t i hp hi he
  subst hp
  have event {u : State} (h : Moves p.screen (s.taken i) u) (hu : exec i s = .next u) :
      Within p.screen s t := by
    cases hu.symm.trans he
    exact h.within.taken
  have request {u : State} (h : Within p.screen (s.taken i) u) (hu : exec i s = .next u) : Within p.screen s t := by
    cases hu.symm.trans he
    exact h.taken
  have start (u : State) : Moves p.screen u u := Moves.refl u
  obtain ⟨time, rfl⟩ | ⟨old, new, rfl⟩ | ⟨n, rfl⟩ | ⟨cue, how, n, rfl⟩ | ⟨n, rfl⟩ | ⟨n, rfl⟩ | ⟨n, rfl⟩ |
    ⟨new, old, cause, rfl⟩ | rfl | ⟨kind, n, rfl⟩ | ⟨reason, rfl⟩ | rfl | rfl | ⟨tag, screen, hscreen, hreq⟩ := hi
  · exact event ((start _).boothSecond time) rfl
  · exact event ((start _).clockSet old new) rfl
  · exact event (start _).atSpeedSeen rfl
  · exact event ((start _).cueFired cue how) rfl
  · exact event (start _).pictureEnded rfl
  · exact event (start _).runoutSeen rfl
  · exact event ((start _).fault _ _ _ _) rfl
  · exact event ((start _).lampChanged new cause) rfl
  · exact event (start _).evaluate rfl
  · exact event ((start _).fault _ _ _ _) rfl
  · exact event ((start _).fault _ _ _ _) rfl
  · exact event ((start _).fault _ _ _ _) rfl
  · exact event ((start _).fault _ _ _ _) rfl
  · have hs := screenOf_eq_some_iff.2 hscreen
    obtain rfl | rfl | rfl | rfl | rfl | rfl | ⟨x, rfl⟩ | ⟨t0, tc, np, rfl⟩ | ⟨index, kind, area, rfl⟩ |
      ⟨bank, index, confirm, rfl⟩ | ⟨bank, index, rfl⟩ := hreq
    · exact request ((start _).start hs tag).within rfl
    · exact request ((start _).resume hs tag).within rfl
    · exact request ((start _).abortRequest hs tag).within rfl
    · exact request ((start _).changeNow hs tag).within rfl
    · exact request ((start _).clearStaged hs tag).within rfl
    · exact request ((start _).cancelSwitch hs tag).within rfl
    · exact request (setScreen_within hs tag x _) rfl
    · exact request ((start _).switchProgramme hs tag t0 tc np).within rfl
    · exact request ((start _).writeEntry hs tag index kind area).within rfl
    · exact request ((start _).confirmRequest hs tag bank index confirm).within rfl
    · exact request ((start _).confirmRequest hs tag bank index 0).within rfl

end Sys2Proof.Machine
end

section
namespace Sys2Proof.Machine

variable {s : State}

/-! ## The step and the reset state -/

/-- Settles O1: by what waits. -/
theorem stepRunsFrontOfQueue : Obligations.StepRunsFrontOfQueue := by
  refine ⟨fun c rest s hp => ?_, fun s hp => ⟨fun e rest he => ?_, fun he => ?_⟩⟩
  · simp only [step, hp]
  · simp only [step, hp, he]
  · simp only [step, hp, he]

/-- Settles O60: every record has its reset values. -/
theorem resetStateIsSafe : Obligations.ResetStateIsSafe := by
  refine ⟨⟨?_, Bsu.Safe.reset, fun p => ?_, fun p => ?_, fun sc => ?_, fun sc => ?_, fun i => ?_⟩, rfl⟩
  · exact ⟨Nat.zero_le _, Nat.zero_le _, by decide, Nat.zero_le _⟩
  · cases p <;> exact Trm.Legal.reset
  · cases p <;> exact Alc.Legal.reset
  · cases sc <;> exact ⟨nofun, nofun⟩
  · cases sc <;> exact ⟨rfl, rfl⟩
  · cases i with
    | cueSensor p => cases p <;> exact ⟨Nat.zero_le _, fun _ => rfl, nofun⟩
    | loopSwitch p => cases p <;> exact ⟨Nat.zero_le _, fun _ => rfl, nofun⟩
    | shutterUp p => cases p <;> exact ⟨Nat.zero_le _, fun _ => rfl, nofun⟩
    | _ => exact ⟨Nat.zero_le _, fun _ => rfl, nofun⟩

/-! ## QUIET, IDENTIFY and the Booth Clock (R183 to R186) -/

theorem quiet_badField {setting : Byte} (h0 : setting ≠ 0) (h1 : setting ≠ 1) (tag : Byte) (s : State) :
    quiet tag setting s = s.answer 0x14 tag .badField := if_pos ⟨h0, h1⟩

/-- A flag byte reads back as its flag. -/
theorem flagByte_eq_one (on : Bool) : decide ((if on then 1 else 0 : Byte) = 1) = on := by cases on <;> rfl

theorem flagByte_no_badField (on : Bool) : ¬((if on then 1 else 0 : Byte) ≠ 0 ∧ (if on then 1 else 0 : Byte) ≠ 1) := by
  cases on <;> decide

theorem quiet_flag (on : Bool) (tag : Byte) (s : State) :
    quiet tag (if on then 1 else 0) s =
      if s.cnl.quiet = on then s.answer 0x14 tag .already
      else (s.modCnl fun c => { c with quiet := on }).answer 0x14 tag .done := by
  unfold quiet
  rw [if_neg (flagByte_no_badField on), flagByte_eq_one]

theorem quiet_frame (tag setting : Byte) (s : State) :
    KeepsAllBut s (quiet tag setting s) [.events, .cnl] ∧ (quiet tag setting s).events = s.events := by
  have hanswer (u : State) (kind : Byte) (r : Result) : KeepsAllBut u (u.answer kind tag r) [.events, .cnl] :=
    (keeps_reply _ _ _ _ _ _).mono (by simp)
  unfold quiet
  split
  · exact ⟨hanswer _ _ _, rfl⟩
  · split
    · exact ⟨hanswer _ _ _, rfl⟩
    · exact ⟨((keeps_modCnl _ _).mono (by simp)).trans (hanswer _ _ _), rfl⟩

theorem nextTime_eq_ite (t : Nat) : nextTime t = if t < 4294967295 then t + 1 else 4294967295 := by
  rw [nextTime_spec]
  split <;> omega

/-- Settles O10: by the request and its operand. -/
theorem linkAndClockRequests : Obligations.LinkAndClockRequests := by
  refine ⟨fun tag setting s =>
    ⟨⟨_, rfl, ?_, (quiet_frame _ _ _).2, fun h0 h1 => ?_, fun on hon => ⟨fun hq => ?_, fun hq => ?_⟩⟩, ?_⟩,
    fun s => ⟨_, rfl, ?_, ?_, rfl⟩, fun tag time s => ⟨⟨_, rfl, ?_, rfl, rfl, rfl⟩, rfl⟩⟩
  · exact ((keeps_taken _ _).mono (by simp)).trans (quiet_frame _ _ _).1
  · rw [quiet_badField h0 h1]
    rfl
  · subst hon
    exact congrArg State.cnl ((quiet_flag on tag (s.taken _)).trans (if_pos hq))
  · subst hon
    exact congrArg State.cnl ((quiet_flag on tag (s.taken _)).trans (if_neg hq))
  · rfl
  · exact ((keeps_modBck _ _).mono (by simp)).trans ((keeps_emitAll _ _).mono (by simp))
  · rw [← nextTime_eq_ite]
    rfl
  · exact (((keeps_taken _ _).mono (by simp)).trans ((keeps_modBck _ _).mono (by simp))).trans
      (((keeps_emitAll _ _).mono (by simp)).trans ((keeps_reply _ _ _ _ _ _).mono (by simp)))

/-! ## Taking frames (R179) -/

theorem takeFrame_of_room {f : Frame} {rest : List Frame} (hin : s.cnl.inbound = f :: rest)
    (hroom : s.cnl.replies.length + s.cnl.reserved < 4) (hreset : s.cnl.resetPending = false) :
    takeFrame s = (s.modCnl fun c => { c with inbound := rest }).decide f := by
  unfold takeFrame
  rw [hin]
  exact if_pos ⟨decide_eq_true hroom, hreset⟩

theorem takeFrame_of_wait {f : Frame} {rest : List Frame} (hin : s.cnl.inbound = f :: rest)
    (hwait : 4 ≤ s.cnl.replies.length + s.cnl.reserved ∨ s.cnl.resetPending = true) : takeFrame s = s := by
  unfold takeFrame
  rw [hin]
  refine if_neg fun ⟨hroom, hreset⟩ => ?_
  have hroom : s.cnl.replies.length + s.cnl.reserved < 4 := of_decide_eq_true hroom
  obtain h | h := hwait
  · omega
  · simp [h] at hreset

/-- The CNL's own reply finds its place free. -/
theorem own_of_room {c : Cnl} (hroom : c.replies.length + c.reserved < 4) (r : Reply) :
    c.own r = { c with replies := c.replies ++ [r] } := if_pos (decide_eq_true hroom)

theorem own_of_full {c : Cnl} (hfull : 4 ≤ c.replies.length + c.reserved) (r : Reply) : c.own r = c :=
  if_neg fun h => absurd (of_decide_eq_true h : c.replies.length + c.reserved < 4) (by omega)

theorem isSetKind_iff (kind : Byte) : isSetKind kind = true ↔
    kind = 0x20 ∨ kind = 0x21 ∨ kind = 0x22 ∨ kind = 0x23 ∨ kind = 0x3A ∨ kind = 0x40 := by
  simp [isSetKind, or_assoc]

/-- Settles O6: a frame is taken into a free place; what is done with it is what it decodes to. -/
theorem takenFrameGoesToItsOwner : Obligations.TakenFrameGoesToItsOwner := by
  intro f rest s hin
  refine ⟨fun hroom hreset => ?_, fun hwait => congrArg _ (takeFrame_of_wait hin hwait)⟩
  have htake : exec .takeFrame s = .next ((s.modCnl fun c => { c with inbound := rest }).decide f) :=
    congrArg _ (takeFrame_of_room hin hroom hreset)
  refine ⟨fun i hi => ?_, fun hunknown => ?_, fun hlength => ⟨fun hset => ?_, fun hset => ?_⟩⟩
  · rw [htake]
    simp only [State.decide, hi]
    rfl
  · rw [htake]
    simp only [State.decide, hunknown]
    simp only [State.modCnl, own_of_room (c := { s.cnl with inbound := rest }) hroom]
    rfl
  · rw [htake]
    simp only [State.decide, hlength, badLength, (isSetKind_iff _).2 hset]
    simp only [State.modCnl, own_of_room (c := { s.cnl with inbound := rest }) hroom]
    rfl
  · rw [htake]
    have hset : isSetKind f.kind = false := by rw [← Bool.not_eq_true, isSetKind_iff]; exact hset
    simp only [State.decide, hlength, badLength, hset]
    simp only [State.modCnl, own_of_room (c := { s.cnl with inbound := rest }) hroom]
    rfl

/-! ## Characters (R174) -/

theorem readCharacter_character (b : Byte) : readCharacter (character b) = some (b, true) := by
  have hbyte : ∀ b : Byte,
      BitVec.ofNat 8 (((List.range 8).map b.getLsbD).foldr (fun x n => 2 * n + x.toNat) 0) = b := by decide
  exact congrArg (fun x => some (x, true)) (hbyte b)

theorem character_data (b : Byte) (d : Bool) {k : Nat} (hk : k < 8) : (character b).getD (k + 1) d = b.getLsbD k := by
  unfold character
  rw [List.getD_cons_succ, List.getD_append _ _ _ _ (by simpa using hk), List.getD_eq_getElem _ _ (by simpa using hk)]
  simp

theorem outputCharacter_eq {c : Cnl} {x : Transmission} {b : Byte} (hx : c.tx = some x)
    (hb : (c.frame x)[x.sent]? = some b) : c.outputCharacter = character b := by
  simp [Cnl.outputCharacter, hx, hb]

/-! ## The end of a frame (R181, R182, R188) -/

theorem isResetDone_iff (r : Reply) : r.isResetDone = true ↔ r.kind = 0x93 ∧ r.result = .done := by
  simp [Reply.isResetDone]

theorem resetIfDone_of_done {r : Reply} (h : s.cnl.resetPending = true ∧ r.kind = 0x93 ∧ r.result = .done) :
    s.resetIfDone r = s.makeReset := by
  have hdone := (isResetDone_iff r).2 h.2
  simp [State.resetIfDone, h.1, hdone]

theorem resetIfDone_of_not_done {r : Reply} (h : ¬(s.cnl.resetPending = true ∧ r.kind = 0x93 ∧ r.result = .done)) :
    s.resetIfDone r = s := by
  rw [← isResetDone_iff] at h
  exact if_neg (by simpa using h)

theorem placeFreed_of_none_lost {c : Cnl} (h : c.lost = 0) (time : Nat) : c.placeFreed time = c := if_pos h

theorem placeFreed_of_lost {c : Cnl} (h : 0 < c.lost) (time : Nat) :
    c.placeFreed time = { c with notices := c.notices ++ [⟨time, .noticesLost c.lost⟩], lost := 0 } :=
  if_neg (Nat.ne_of_gt h)

theorem frameSent_reply {n : Nat} {r : Reply} {rest : List Reply} (hx : s.cnl.tx = some ⟨true, n⟩)
    (hr : s.cnl.replies = r :: rest) :
    frameSent s =
      ((s.modCnl fun c => { c with tx := none }).modCnl fun c => { c with replies := rest }).resetIfDone r := by
  simp only [frameSent, hx, State.modCnl_cnl, hr, if_true]

theorem frameSent_notice {n : Nat} (hx : s.cnl.tx = some ⟨false, n⟩) :
    frameSent s = (s.modCnl fun c => { c with tx := none }).modCnl fun c =>
      Cnl.placeFreed { c with notices := c.notices.tail } s.bck.time := by
  simp only [frameSent, hx]
  rfl

/-- R181: what a free transmitter starts. -/
theorem exec_frameStart_idle (hx : s.cnl.tx = none) :
    exec .frameStart s = .next (s.modCnl fun c => { c with tx := c.nextFrame s.pins.lineMark }) := by
  change Host.Outcome.next _ = _
  simp [State.modCnl, hx]

theorem isPowerRestart_iff (x : Notice) : x.isPowerRestart = true ↔ ∃ rate, x.body = .restart .power rate := by
  unfold Notice.isPowerRestart
  split
  · next rate h => simp [h]
  · next h =>
    refine ⟨nofun, fun ⟨rate, e⟩ => absurd e (h rate)⟩

/-- Settles O7: what the output carries, what a free transmitter starts, and what a sent frame leaves. -/
theorem transmitterSendsRepliesFirst : Obligations.TransmitterSendsRepliesFirst := by
  refine ⟨readCharacter_character, fun s => ⟨?_, ?_, ?_, ?_, ?_, ?_, ?_⟩⟩
  · intro hx bit
    simp [Cnl.outputLevel, Cnl.outputCharacter, hx]
  · intro x b hx hb
    unfold Cnl.outputLevel
    rw [outputCharacter_eq hx hb]
    exact ⟨rfl, fun k hk => character_data b true hk, rfl⟩
  · intro hx hbrk hr
    rw [exec_frameStart_idle hx]
    simp [State.modCnl, Cnl.nextFrame, hbrk, hr]
  · intro x rest hx hbrk hr hn hquiet
    refine ⟨fun hready => ?_, fun rate hspace hrestart => ?_⟩
    · have hready : s.cnl.noticeReady s.pins.lineMark = true := by
        simp only [Cnl.noticeReady, hn]
        obtain h | h := hready
        · simp [h]
        · have : x.isPowerRestart = false := by
            rw [← Bool.not_eq_true, isPowerRestart_iff]
            exact fun ⟨rate, e⟩ => h rate e
          simp [this]
      rw [exec_frameStart_idle hx]
      simp [State.modCnl, Cnl.nextFrame, hbrk, hr, hquiet, hready]
    · have hready : s.cnl.noticeReady s.pins.lineMark = false := by
        simp [Cnl.noticeReady, hn, hspace, (isPowerRestart_iff x).2 ⟨rate, hrestart⟩]
      have hnext : s.cnl.nextFrame s.pins.lineMark = none := by simp [Cnl.nextFrame, hr, hready]
      rw [exec_frameStart_idle hx]
      simp [State.modCnl, hnext, ← hx]
  · intro h
    cases hx : s.cnl.tx with
    | some x =>
      change Host.Outcome.next _ = _
      simp [State.modCnl, hx]
    | none =>
      have hnext : s.cnl.nextFrame s.pins.lineMark = none := by
        obtain h | h | ⟨hr, h | h⟩ := h
        · simp [hx] at h
        · simp [Cnl.nextFrame, h]
        · simp [Cnl.nextFrame, hr, h]
        · simp [Cnl.nextFrame, hr, h, Cnl.noticeReady]
      rw [exec_frameStart_idle hx]
      simp [State.modCnl, hnext, ← hx]
  · intro n r rest hx hr
    have hsent : exec .frameSent s = .next (((s.modCnl fun c => { c with tx := none }).modCnl fun c =>
        { c with replies := rest }).resetIfDone r) := congrArg _ (frameSent_reply hx hr)
    refine ⟨fun hdone => ?_, fun hdone => ?_⟩
    · exact hsent.trans (congrArg _ (resetIfDone_of_done hdone))
    · exact hsent.trans (congrArg _ (resetIfDone_of_not_done hdone))
  · intro n x rest hx hn
    have hsent := congrArg (Host.Outcome.next (φ := Fault) (ρ := Refusal)) (frameSent_notice hx)
    refine ⟨fun hlost => ?_, fun hlost => ?_⟩
    · refine hsent.trans ?_
      simp only [State.modCnl, hn, List.tail_cons]
      rw [placeFreed_of_none_lost]
      exact hlost
    · refine hsent.trans ?_
      simp only [State.modCnl, hn, List.tail_cons]
      rw [placeFreed_of_lost]
      exact hlost

/-! ## The link reset (R177, R178) -/

theorem linkReset_idle (hx : s.cnl.tx = none) :
    s.linkReset = s.modCnl fun c => { c.hunt with inbound := [], rx := .brk } := by
  simp only [State.linkReset, State.abandon, State.modCnl, Cnl.hunt, hx]

theorem linkReset_reply {n : Nat} {r : Reply} {rest : List Reply} (hx : s.cnl.tx = some ⟨true, n⟩)
    (hr : s.cnl.replies = r :: rest) :
    s.linkReset = ((s.modCnl fun c => { c.hunt with inbound := [], tx := none, replies := rest }).resetIfDone r).modCnl
      fun c => { c with rx := .brk } := by
  simp only [State.linkReset, State.abandon, State.modCnl, Cnl.hunt, hx, hr, if_true]

theorem linkReset_notice {n : Nat} {x : Notice} {rest : List Notice} (hx : s.cnl.tx = some ⟨false, n⟩)
    (hn : s.cnl.notices = x :: rest) :
    s.linkReset = s.modCnl fun c =>
      { Cnl.placeFreed { c.hunt with inbound := [], tx := none, notices := rest, lost := lostAfter c.lost x }
          s.bck.time with rx := .brk } := by
  simp only [State.linkReset, State.abandon, State.modCnl, Cnl.hunt, hx, hn]
  rfl

/-- R178 item 3: an abandoned notice leaves at least one notice lost. -/
theorem placeFreed_lostAfter (c : Cnl) (x : Notice) (time : Nat) :
    Cnl.placeFreed { c with lost := lostAfter c.lost x } time =
      { c with lost := 0, notices := c.notices ++ [⟨time, .noticesLost (lostAfter c.lost x)⟩] } := by
  have hlost : 0 < lostAfter c.lost x := by
    unfold lostAfter
    split <;> omega
  exact placeFreed_of_lost hlost time

theorem lostAfter_noticesLost {x : Notice} {k : Nat} (h : x.body = .noticesLost k) (n : Nat) :
    lostAfter n x = min 255 (n + k + 1) := by simp only [lostAfter, h]

theorem lostAfter_other {x : Notice} (h : ∀ k, x.body ≠ .noticesLost k) (n : Nat) :
    lostAfter n x = min 255 (n + 1) := by
  unfold lostAfter
  split
  · next k e => exact absurd e (h k)
  · rfl

/-- R178: with no BOOTH RESET to make, a link reset changes the link's record alone. -/
theorem linkReset_of_no_reset (h : ∀ n r rest, s.cnl.tx = some ⟨true, n⟩ → s.cnl.replies = r :: rest →
    ¬(s.cnl.resetPending = true ∧ r.kind = 0x93 ∧ r.result = .done)) : ∃ f, s.linkReset = s.modCnl f := by
  match hx : s.cnl.tx with
  | none => exact ⟨_, linkReset_idle hx⟩
  | some ⟨true, n⟩ =>
    match hr : s.cnl.replies with
    | [] =>
      refine ⟨fun c => { c.hunt with inbound := [], tx := none, rx := .brk }, ?_⟩
      simp only [State.linkReset, State.abandon, State.modCnl, Cnl.hunt, hx, hr, if_true]
    | r :: rest =>
      rw [linkReset_reply hx hr, resetIfDone_of_not_done (by exact h n r rest hx hr)]
      exact ⟨fun c => { c.hunt with inbound := [], tx := none, replies := rest, rx := .brk }, rfl⟩
  | some ⟨false, n⟩ =>
    match hn : s.cnl.notices with
    | [] =>
      refine ⟨fun c => { c.hunt with inbound := [], tx := none, rx := .brk }, ?_⟩
      simp only [State.linkReset, State.abandon, State.modCnl, Cnl.hunt, hx, hn]
      rfl
    | x :: rest => exact ⟨_, linkReset_notice hx hn⟩

/-- R178 item 3: the link's record after a notice in transmission is abandoned. -/
theorem abandonNotice_cnl (s : State) (x : Notice) (rest : List Notice) :
    ({ Cnl.placeFreed { s.cnl.hunt with inbound := [], tx := none, notices := rest, lost := lostAfter s.cnl.lost x }
        s.bck.time with rx := .brk } : Cnl) =
      { s.cnl with rx := .brk, partialFrame := none, gapTimer := false, inbound := [], tx := none, lost := 0,
                   notices := rest ++ [⟨s.bck.time, .noticesLost (lostAfter s.cnl.lost x)⟩] } :=
  congrArg (fun c : Cnl => { c with rx := .brk })
    (placeFreed_lostAfter { s.cnl.hunt with inbound := [], tx := none, notices := rest } x s.bck.time)

theorem lineBreak_of_brk (h : s.cnl.rx = .brk) : lineBreak s = s := if_pos h
theorem lineBreak_of_not_brk (h : s.cnl.rx ≠ .brk) : lineBreak s = s.linkReset := if_neg h

/-- Settles O8: by what is in transmission, and whether it is the DONE reply of an accepted BOOTH RESET. -/
theorem lineBreakResetsTheLink : Obligations.LineBreakResetsTheLink := by
  intro s line resets
  refine ⟨fun hbrk => ?_, fun n r rest hbrk hx hr hdone => ⟨_, rfl, ?_⟩, fun hbrk hnot => ⟨_, rfl, ?_⟩, fun hbrk => ?_,
    fun hbrk => ?_, fun hgap => ?_, fun hgap => ?_⟩
  · exact congrArg _ (lineBreak_of_brk (s := s.lineAt false) hbrk)
  · have hreset := linkReset_reply (s := s.lineAt false) hx hr
    rw [resetIfDone_of_done (by exact hdone)] at hreset
    exact congrArg _ ((lineBreak_of_not_brk (s := s.lineAt false) hbrk).trans hreset)
  · obtain ⟨f, hf⟩ := linkReset_of_no_reset (s := s.lineAt false) hnot
    rw [lineBreak_of_not_brk (s := s.lineAt false) hbrk]
    refine ⟨?_, ?_, fun hx => ?_, fun n r rest hx hr => ?_, fun n x rest hx hn => ⟨fun k hk => ?_, fun hk => ?_⟩⟩
    · rw [hf]
      exact ((keeps_modPins _ _).mono (by simp)).trans ((keeps_modCnl _ _).mono (by simp))
    · rw [hf]
      rfl
    · rw [linkReset_idle (s := s.lineAt false) hx]
      simp [Cnl.hunt, State.lineAt, hx]
    · rw [linkReset_reply (s := s.lineAt false) hx hr, resetIfDone_of_not_done (by exact hnot n r rest hx hr)]
      rfl
    · rw [linkReset_notice (s := s.lineAt false) hx hn, ← lostAfter_noticesLost hk]
      exact abandonNotice_cnl s x rest
    · rw [linkReset_notice (s := s.lineAt false) hx hn, ← lostAfter_other hk]
      exact abandonNotice_cnl s x rest
  · change Host.Outcome.next (State.modCnl _ _) = _
    simp [State.modCnl, State.lineAt, hbrk, line, State.modPins]
  · change Host.Outcome.next (State.modCnl _ _) = _
    simp [State.modCnl, State.lineAt, hbrk, line, State.modPins]
  · change Host.Outcome.next (State.modCnl _ _) = _
    simp [State.modCnl, hgap, Cnl.hunt]
  · change Host.Outcome.next (State.modCnl _ _) = _
    simp [State.modCnl, hgap]

/-! ## Power-on and BOOTH RESET (R187 to R189) -/

/-- Settles O11: the reset values stand in the model's own tables of them. -/
theorem powerOnResetsEveryBlock : Obligations.PowerOnResetsEveryBlock := by
  refine ⟨fun straps s => ⟨_, rfl, rfl, rfl, rfl, rfl, rfl, rfl, rfl, rfl, rfl, rfl, rfl, fun i => ?_, fun p => ?_,
    fun sc => ?_, fun sc => ?_, fun p => ?_, fun p => ?_⟩, rfl, rfl, rfl, rfl⟩
  · cases i with
    | cueSensor p => cases p <;> exact ⟨rfl, rfl⟩
    | loopSwitch p => cases p <;> exact ⟨rfl, rfl⟩
    | shutterUp p => cases p <;> exact ⟨rfl, rfl⟩
    | _ => exact ⟨rfl, rfl⟩
  · cases p <;> exact ⟨rfl, rfl⟩
  · cases sc <;> rfl
  · cases sc <;> rfl
  · cases p <;> rfl
  · cases p <;> rfl

theorem anyBusy_iff (s : State) :
    (Screen.all.any fun sc => decide ((s.shc.get sc).state ≠ .idle)) = true ↔ ∃ sc, (s.shc.get sc).state ≠ .idle := by
  simp only [List.any_eq_true, decide_eq_true_eq]
  exact ⟨fun ⟨sc, _, h⟩ => ⟨sc, h⟩, fun ⟨sc, h⟩ => ⟨sc, mem_allScreen sc, h⟩⟩

theorem boothReset_badField {force : Byte} (h0 : force ≠ 0) (h1 : force ≠ 1) (tag : Byte) (s : State) :
    boothReset tag force s = s.answer 0x13 tag .badField := if_pos ⟨h0, h1⟩

theorem boothReset_busy (h : ∃ sc, (s.shc.get sc).state ≠ .idle) (tag : Byte) :
    boothReset tag 0 s = s.answer 0x13 tag .busy :=
  (if_neg (by simp)).trans (if_pos ⟨rfl, (anyBusy_iff s).2 h⟩)

theorem boothReset_accepted {force : Byte} (h : force = 1 ∨ (force = 0 ∧ ∀ sc, (s.shc.get sc).state = .idle))
    (tag : Byte) :
    boothReset tag force s = (s.modCnl fun c => { c with resetPending := true }).answer 0x13 tag .done := by
  have hbusy : ¬(force = 0 ∧ (Screen.all.any fun sc => decide ((s.shc.get sc).state ≠ .idle)) = true) := by
    rw [anyBusy_iff]
    rintro ⟨rfl, sc, hsc⟩
    obtain h | ⟨-, h⟩ := h
    · cases h
    · exact hsc (h sc)
  exact (if_neg (by obtain rfl | ⟨rfl, -⟩ := h <;> simp)).trans (if_neg hbusy)

theorem boothReset_frame (tag force : Byte) (s : State) :
    KeepsAllBut s (boothReset tag force s) [.events, .cnl] ∧ (boothReset tag force s).events = s.events := by
  have hanswer (u : State) (r : Result) : KeepsAllBut u (u.answer 0x13 tag r) [.events, .cnl] :=
    (keeps_reply _ _ _ _ _ _).mono (by simp)
  unfold boothReset
  split
  · exact ⟨hanswer _ _, rfl⟩
  · split
    · exact ⟨hanswer _ _, rfl⟩
    · exact ⟨((keeps_modCnl _ _).mono (by simp)).trans (hanswer _ _), rfl⟩

/-- Settles O12: the request by its operand and the screens; the reset made differs from power-on in two records. -/
theorem boothResetKeepsTheClock : Obligations.BoothResetKeepsTheClock := by
  intro tag force straps s
  refine ⟨⟨_, rfl, ?_, (boothReset_frame _ _ _).2, fun h0 h1 => ?_, fun h0 hbusy => ?_, fun h => ?_⟩,
    ⟨_, _, rfl, rfl, fun x hx => ?_, rfl, rfl, rfl, rfl⟩⟩
  · exact ((keeps_taken _ _).mono (by simp)).trans (boothReset_frame _ _ _).1
  · exact congrArg State.cnl (boothReset_badField h0 h1 tag (s.taken _))
  · subst h0
    exact congrArg State.cnl (boothReset_busy (s := s.taken _) hbusy tag)
  · exact congrArg State.cnl (boothReset_accepted (s := s.taken _) h tag)
  · cases x <;> first | rfl | simp at hx

end Sys2Proof.Machine
end

section
namespace Sys2Proof

/-! ## Fields put together again (R190) -/

theorem halfOf_bytes (x : Half) : halfOf (Half.hi x) (Half.lo x) = x := by
  refine BitVec.eq_of_getLsbD_eq fun i hi => ?_
  simp only [halfOf, Half.hi, Half.lo, BitVec.getLsbD_append, BitVec.getLsbD_extractLsb']
  split
  · simp [*]
  · have hsum : 8 + (i - 8) = i := by omega
    simp only [hsum]
    simp
    omega

theorem wordOf_bytes (x : Word) :
    wordOf (x.extractLsb' 24 8) (x.extractLsb' 16 8) (x.extractLsb' 8 8) (x.extractLsb' 0 8) = x := by
  refine BitVec.eq_of_getLsbD_eq fun i hi => ?_
  simp only [wordOf, BitVec.getLsbD_append, BitVec.getLsbD_extractLsb']
  split_ifs
  · simp [*]
  · have hsum : 8 + (i - 8) = i := by omega
    simp [*]
  · have hsum : 16 + (i - 8 - 8) = i := by omega
    simp [*]
  · have hsum : 24 + (i - 8 - 8 - 8) = i := by omega
    simp only [hsum]
    simp
    omega

/-! ## Requests read back (R191) -/

/-- A command that no frame brings. -/
theorem decode_of_event {i : Instr} (h : encodeRequest i = none) {kind tag : Byte} {body : List Byte}
    (he : encodeRequest i = some (kind, tag, body)) : decodeRequest kind tag body = .request i :=
  nomatch h.symm.trans he

/-- A request that its own frame is read back as. -/
theorem decode_of_request {i : Instr} {k g : Byte} {b : List Byte} (h : encodeRequest i = some (k, g, b))
    (hd : decodeRequest k g b = .request i) {kind tag : Byte} {body : List Byte}
    (he : encodeRequest i = some (kind, tag, body)) : decodeRequest kind tag body = .request i := by
  cases h.symm.trans he
  exact hd

/-- A KIND whose decoder reads the body. -/
theorem decodeRequest_of {kind tag : Byte} {body : List Byte} {f : List Byte → Option Instr} {i : Instr}
    (hk : bodyDecoder kind tag = some f) (hb : f body = some i) : decodeRequest kind tag body = .request i := by
  simp only [decodeRequest, hk, hb]

/-- Settles O5: command by command; the fields of two and four bytes are put together again. -/
theorem requestFramesDecodeToTheirRequests : Obligations.RequestFramesDecodeToTheirRequests := by
  intro i kind tag body hw
  cases i with
  | identify tag => exact decode_of_request rfl (decodeRequest_of rfl rfl)
  | setClock tag time =>
    exact decode_of_request rfl (decodeRequest_of rfl (by rw [wordBytes, setClockBody, wordOf_bytes]))
  | readClock tag => exact decode_of_request rfl (decodeRequest_of rfl rfl)
  | boothReset tag force => exact decode_of_request rfl (decodeRequest_of rfl rfl)
  | quiet tag setting => exact decode_of_request rfl (decodeRequest_of rfl rfl)
  | setScreen tag sc x =>
    exact decode_of_request rfl (decodeRequest_of rfl (by
      simp [halfBytes, setScreenBody, halfOf_bytes]))
  | setLamp tag lamp x =>
    exact decode_of_request rfl (decodeRequest_of rfl (by
      simp [halfBytes, setLampBody, halfOf_bytes]))
  | setAuditorium tag aud floor => exact decode_of_request rfl (decodeRequest_of rfl rfl)
  | setPreset tag aud preset h a s fade =>
    exact decode_of_request rfl (decodeRequest_of rfl (by
      simp [halfBytes, setPresetBody, halfOf_bytes]))
  | writeEntry tag sc index kind area =>
    have harea : area.length = 16 := by simpa [wellFormed] using hw
    exact decode_of_request rfl (decodeRequest_of rfl (by simp [writeEntryBody, harea]))
  | clearStaged tag sc => exact decode_of_request rfl (decodeRequest_of rfl rfl)
  | readEntry tag sc bank index => exact decode_of_request rfl (decodeRequest_of rfl rfl)
  | switchProgramme tag sc t0 tc np =>
    exact decode_of_request rfl (decodeRequest_of rfl (by
      simp [halfBytes, wordBytes, switchProgrammeBody, halfOf_bytes, wordOf_bytes]))
  | cancelSwitch tag sc => exact decode_of_request rfl (decodeRequest_of rfl rfl)
  | confirmReel tag sc bank index confirm =>
    have hconfirm : confirm ≠ 0 := by simpa [wellFormed] using hw
    exact decode_of_request rfl (decodeRequest_of rfl (congrArg some (if_neg hconfirm)))
  | withdrawConfirmation tag sc bank index => exact decode_of_request rfl (decodeRequest_of rfl rfl)
  | start tag sc => exact decode_of_request rfl (decodeRequest_of rfl rfl)
  | resume tag sc => exact decode_of_request rfl (decodeRequest_of rfl rfl)
  | abort tag sc => exact decode_of_request rfl (decodeRequest_of rfl rfl)
  | changeNow tag sc => exact decode_of_request rfl (decodeRequest_of rfl rfl)
  | strike asker =>
    cases asker
    · exact decode_of_request rfl (decodeRequest_of rfl rfl)
    · exact decode_of_event rfl
  | extinguish asker =>
    cases asker
    · exact decode_of_request rfl (decodeRequest_of rfl rfl)
    · exact decode_of_event rfl
  | setTrim tag lamp length =>
    exact decode_of_request rfl (decodeRequest_of rfl (by
      simp [halfBytes, setTrimBody, halfOf_bytes]))
  | setLights tag aud mode preset h a s fade =>
    exact decode_of_request rfl (decodeRequest_of rfl (by
      simp [halfBytes, setLightsBody, halfOf_bytes]))
  | releaseLights tag aud => exact decode_of_request rfl (decodeRequest_of rfl rfl)
  | raiseShutter tag p => exact decode_of_request rfl (decodeRequest_of rfl rfl)
  | dropShutter tag p => exact decode_of_request rfl (decodeRequest_of rfl rfl)
  | raiseAlarm tag => exact decode_of_request rfl (decodeRequest_of rfl rfl)
  | clearFire tag => exact decode_of_request rfl (decodeRequest_of rfl rfl)
  | clearEstop tag => exact decode_of_request rfl (decodeRequest_of rfl rfl)
  | readScreen tag sc part => exact decode_of_request rfl (decodeRequest_of rfl rfl)
  | readProjector tag p => exact decode_of_request rfl (decodeRequest_of rfl rfl)
  | readLamp tag lamp part => exact decode_of_request rfl (decodeRequest_of rfl rfl)
  | readAuditorium tag aud part => exact decode_of_request rfl (decodeRequest_of rfl rfl)
  | readSafety tag part => exact decode_of_request rfl (decodeRequest_of rfl rfl)
  | _ => exact decode_of_event rfl

end Sys2Proof

namespace Sys2Proof.Machine

/-! ## The receiver (R175, R176) -/

theorem sumOk_iff (len : Byte) (bytes : List Byte) :
    sumOk len bytes = true ↔ (len.toNat + (bytes.map (·.toNat)).sum) % 256 = 0 := by
  have hfold : ∀ (bs : List Byte) (x : Byte),
      (bs.foldl (· + ·) x).toNat = (x.toNat + (bs.map (·.toNat)).sum) % 256 := by
    intro bs
    induction bs with
    | nil => intro x; simp; omega
    | cons b bs ih => intro x; simp [ih]; omega
  rw [← hfold, sumOk, decide_eq_true_eq, ← BitVec.toNat_inj]
  rfl

/-- R176: a whole frame whose sum is wrong. -/
theorem complete_of_bad_sum {c : Cnl} {len : Byte} {bytes : List Byte} (h : sumOk len bytes = false) :
    c.complete len bytes = c.hunt.own (linkError 0 .checkError) := by
  simp [Cnl.complete, h]

/-- R176: a whole frame, its sum right. -/
theorem complete_of_sum {c : Cnl} {len kind tag b : Byte} {body : List Byte}
    (h : sumOk len (kind :: tag :: body ++ [b]) = true) :
    c.complete len (kind :: tag :: body ++ [b]) =
      if c.inbound.length < 4 then { c.hunt with inbound := c.inbound ++ [⟨kind, tag, body⟩] }
      else c.hunt.own (linkError tag .queueFull) := by
  simp only [Cnl.complete, h, if_true, List.dropLast_concat]
  rfl

theorem receive_kept {c : Cnl} {len : Byte} {l : List Byte} (hrx : c.rx = .inFrame)
    (hp : c.partialFrame = some ⟨some len, l⟩) (b : Byte) : c.receive b = c.keepByte len (l ++ [b]) := by
  simp [Cnl.receive, hrx, hp]

theorem keepByte_short {c : Cnl} {len : Byte} {l : List Byte} (h : l.length < len.toNat + 1) :
    c.keepByte len l = c.holdPartial ⟨some len, l⟩ := if_neg (Nat.ne_of_lt h)

theorem keepByte_whole {c : Cnl} {len : Byte} {l : List Byte} (h : l.length = len.toNat + 1) :
    c.keepByte len l = c.complete len l := if_pos h

theorem exec_byte (b : Byte) (s : State) : exec (.byteReceived b true) s = .next (s.modCnl (·.receive b)) := rfl

/-- Settles O3: by the receiver's state; at the last byte by the sum and the room. -/
theorem receiverFollowsItsTable : Obligations.ReceiverFollowsItsTable := by
  refine ⟨fun b s => ⟨fun hrx hb => ?_, fun hrx hb => ?_, fun l hrx hp =>
    ⟨fun hlen => ?_, fun hb => ?_, fun hlen hb => ?_⟩,
    fun len l hrx hp hl => ?_, fun hrx => ?_, fun hrx => ?_, fun hrx => ?_⟩, fun len b l s hrx hp hlen hl => ?_⟩
  · simp [exec_byte, State.modCnl, Cnl.receive, hrx, hb, Config.mark, Cnl.holdPartial]
  · have hwait : s.cnl.receive b = s.cnl := by simp only [Cnl.receive, hrx]; exact if_neg hb
    simp [exec_byte, State.modCnl, hwait]
  · simp [exec_byte, State.modCnl, Cnl.receive, hrx, hp, Cnl.lenByte, hlen, Cnl.holdPartial]
  · subst hb
    simp [exec_byte, State.modCnl, Cnl.receive, hrx, hp, Cnl.lenByte, Cnl.holdPartial, Config.mark]
  · have hdrop : s.cnl.receive b = s.cnl.hunt := by
      simp only [Cnl.receive, hrx, hp, Cnl.lenByte, if_neg hlen]
      exact if_neg hb
    simp [exec_byte, State.modCnl, hdrop, Cnl.hunt]
  · rw [exec_byte]
    simp only [State.modCnl, receive_kept hrx hp]
    rw [keepByte_short (by simpa using hl)]
    simp [Cnl.holdPartial, hrx]
  · simp [exec_byte, State.modCnl, Cnl.receive, hrx]
  · change Host.Outcome.next (State.modCnl _ _) = _
    simp [State.modCnl, Cnl.framingError, hrx, Cnl.hunt]
  · change Host.Outcome.next (State.modCnl _ _) = _
    have herror : s.cnl.framingError = s.cnl := by
      unfold Cnl.framingError
      split
      · contradiction
      · rfl
    simp [State.modCnl, herror]
  · have hrec : s.cnl.receive b = s.cnl.complete len (l ++ [b]) := by
      rw [receive_kept hrx hp, keepByte_whole (by simpa using hl)]
    refine ⟨_, exec_byte b s, keeps_modCnl _ _, ?_⟩
    dsimp only [State.modCnl_cnl]
    rw [hrec]
    have hbad (h : (len.toNat + ((l ++ [b]).map (·.toNat)).sum) % 256 ≠ 0) : sumOk len (l ++ [b]) = false := by
      rw [← Bool.not_eq_true, sumOk_iff]
      exact h
    refine ⟨fun hsum hfree => ?_, fun hsum hfull => ?_, fun kind tag body hbody hsum => ?_⟩
    · rw [complete_of_bad_sum (hbad hsum), own_of_room (by exact hfree)]
      rfl
    · rw [complete_of_bad_sum (hbad hsum), own_of_full (by exact Nat.le_of_not_lt hfull)]
      rfl
    · subst hbody
      rw [complete_of_sum ((sumOk_iff _ _).2 hsum)]
      refine ⟨fun hroom => ?_, fun hin hfree => ?_, fun hin hfull => ?_⟩
      · rw [if_pos hroom]
        rfl
      · rw [if_neg (Nat.not_lt.2 hin), own_of_room (by exact hfree)]
        rfl
      · rw [if_neg (Nat.not_lt.2 hin), own_of_full (by exact Nat.le_of_not_lt hfull)]
        rfl

/-! ## A frame from end to end (10.1, R175, R176) -/

/-- Bytes taken one by one go through the receiver one by one. -/
theorem execAll_bytes (bs : List Byte) (s : State) :
    execAll (bs.map fun b => .byteReceived b true) s = .next (s.modCnl fun c => bs.foldl Cnl.receive c) := by
  induction bs generalizing s with
  | nil => rfl
  | cons b bs ih =>
    simp only [List.map_cons, execAll, exec_byte, ih]
    rfl

/-- R175: bytes short of the frame's last are kept. -/
theorem receive_all_short (bs : List Byte) {c : Cnl} {len : Byte} {l : List Byte} (hrx : c.rx = .inFrame)
    (hp : c.partialFrame = some ⟨some len, l⟩) (hg : c.gapTimer = true)
    (hl : l.length + bs.length ≤ len.toNat) :
    bs.foldl Cnl.receive c = c.holdPartial ⟨some len, l ++ bs⟩ := by
  induction bs generalizing c l with
  | nil => simp [Cnl.holdPartial, ← hrx, ← hp, ← hg]
  | cons b bs ih =>
    simp only [List.length_cons] at hl
    rw [List.foldl_cons, receive_kept hrx hp, keepByte_short (by simp; omega), ih rfl rfl rfl (by simp; omega)]
    simp [Cnl.holdPartial]

/-- 10.1: with its SUM byte the bytes of a frame from LEN on add to 0. -/
theorem sumOk_sumByte (len : Byte) (bytes : List Byte) :
    sumOk len (bytes ++ [sumByte (len :: bytes)]) = true := by
  have hfold : ∀ (bs : List Byte) (x : Byte), bs.foldl (· + ·) x = x + bs.foldl (· + ·) 0 := by
    intro bs
    induction bs with
    | nil => intro x; simp
    | cons b bs ih => intro x; rw [List.foldl_cons, List.foldl_cons, ih, ih (0 + b)]; bv_omega
  simp only [sumOk, sumByte, List.foldl_append, List.foldl_cons, List.foldl_nil, decide_eq_true_eq]
  rw [hfold bytes len, hfold bytes (0 + len)]
  bv_omega

/-- Settles O4: MARK and LEN open the partial frame, the bytes to the last of the body are kept, SUM completes it. -/
theorem frameSentIsFrameReceived : Obligations.FrameSentIsFrameReceived := by
  intro kind tag body s hbody hrx hroom
  have hlen : (BitVec.ofNat 8 (body.length + 2)).toNat = body.length + 2 := by
    simp only [BitVec.toNat_ofNat]
    omega
  generalize hlenByte : BitVec.ofNat 8 (body.length + 2) = len at hlen
  have hmark : s.cnl.receive Config.mark = s.cnl.holdPartial ⟨none, []⟩ := by simp [Cnl.receive, hrx]
  have hlenStep : (s.cnl.holdPartial ⟨none, []⟩).receive len = s.cnl.holdPartial ⟨some len, []⟩ := by
    simp [Cnl.receive, Cnl.holdPartial, Cnl.lenByte, hlen, hbody]
  have hframe : frameBytes kind tag body =
      [Config.mark, len] ++ (kind :: tag :: body) ++ [sumByte (len :: kind :: tag :: body)] := by
    simp [frameBytes, hlenByte]
  have hkept := receive_all_short (kind :: tag :: body) (c := s.cnl.holdPartial ⟨some len, []⟩) (l := []) rfl rfl rfl
    (by simp [hlen])
  rw [execAll_bytes, hframe]
  simp only [State.modCnl, List.foldl_append]
  have hopen : [Config.mark, len].foldl Cnl.receive s.cnl = s.cnl.holdPartial ⟨some len, []⟩ := by
    rw [List.foldl_cons, List.foldl_cons, List.foldl_nil, hmark, hlenStep]
  rw [hopen, hkept, List.foldl_cons, List.foldl_nil, receive_kept rfl rfl, keepByte_whole (by simp [hlen])]
  simp only [List.nil_append]
  rw [complete_of_sum (sumOk_sumByte len (kind :: tag :: body)), if_pos (by exact hroom)]
  rfl

end Sys2Proof.Machine
end

section
namespace Sys2Proof.Machine

variable {s : State}

/-! ## Numbers that name a projector (R190) -/

theorem projOf_eq_some_iff {b : Byte} {p : Proj} : projOf b = some p ↔ b.toNat = p.num := by
  constructor
  · intro h
    unfold projOf at h
    split at h <;> cases h <;> assumption
  · intro h
    cases p <;> simp [projOf, h, Proj.num]

theorem projOf_eq_none {b : Byte} (h : ¬(1 ≤ b.toNat ∧ b.toNat ≤ 8)) : projOf b = none := by
  cases hp : projOf b with
  | none => rfl
  | some p =>
    have hnum := projOf_eq_some_iff.1 hp
    cases p <;> simp only [Proj.num] at hnum <;> omega

/-! ## Lengths of fields (R190) -/

@[simp] theorem length_bytes1 (n : Nat) : (bytes1 n).length = 1 := rfl
@[simp] theorem length_bytes2 (n : Nat) : (bytes2 n).length = 2 := rfl
@[simp] theorem length_bytes4 (n : Nat) : (bytes4 n).length = 4 := rfl
@[simp] theorem length_bytesInt1 (i : Int) : (bytesInt1 i).length = 1 := rfl
@[simp] theorem length_bytesInt4 (i : Int) : (bytesInt4 i).length = 4 := rfl
@[simp] theorem length_flag (b : Bool) : (flag b).length = 1 := rfl
@[simp] theorem length_indexByte (i : Option Nat) : (indexByte i).length = 1 := by cases i <;> rfl
@[simp] theorem length_opt1 {α : Type} (f : α → Nat) (x : Option α) : (opt1 f x).length = 1 := by cases x <;> rfl
@[simp] theorem length_half0 (x : Option Nat) : (half0 x).length = 2 := rfl
@[simp] theorem length_word0 (x : Option Nat) : (word0 x).length = 4 := rfl

/-! ## Notices (R194, 10.5) -/

theorem bodyBytes_length (n : Notice) : n.bodyBytes.length = n.body.length := by
  unfold Notice.bodyBytes
  cases n.body <;> simp [NoticeBody.fields, NoticeBody.length]

theorem bodyBytes_take_four (n : Notice) : n.bodyBytes.take 4 = bytes4 n.time := List.take_left' rfl

theorem bodyBytes_drop_four (n : Notice) : n.bodyBytes.drop 4 = n.body.fields := List.drop_left' rfl

/-! ## Parts of a screen, a projector, a lamp, an auditorium and the booth (10.4.3) -/

theorem length_screenPart (c : Shc) : (screenPart c).length = 20 := by simp [screenPart]

theorem furtherCodes_length_le (h : HaltRecord) : (furtherCodes h).length ≤ 8 := by
  unfold furtherCodes
  rw [List.length_map]
  exact List.length_filter_le _ _

theorem length_pad8 {l : List Byte} (h : l.length ≤ 8) : (pad8 l).length = 8 := by
  simp only [pad8, List.length_append, List.length_replicate]
  omega

theorem length_haltPart (c : Shc) : (haltPart c).length = 20 := by
  unfold haltPart
  split
  · simp [length_pad8, furtherCodes_length_le]
  · simp [length_pad8]

theorem length_setupPart (x : ScreenSetup) : (setupPart x).length = 14 := by simp [setupPart]

theorem length_schedulePart (c : Shc) : (schedulePart c).length = 32 := by
  unfold schedulePart
  split <;> split <;> simp

theorem length_gateFlags (s : State) (p : Proj) : (gateFlags s p).length = 7 := by simp [gateFlags]

theorem length_gatePart (s : State) (sc : Screen) : (gatePart s sc).length = 14 := by
  simp [gatePart, length_gateFlags]

theorem length_rankFields (q : Option LightRequest) : (rankFields q).length = 6 := by
  cases q <;> simp [rankFields]

theorem length_tablePart (h : Hlc) (m : Mpt) : (tablePart h m).length = 33 := by
  simp [tablePart, length_rankFields]

theorem length_channelsPart (h : Hlc) (m : Mpt) : (channelsPart h m).length = 40 := by
  simp [channelsPart, channelFields]

theorem length_presetsPart (h : Hlc) : (presetsPart h).length = 40 := by
  have hfields : List.length ∘ (fun n => presetFields (h.preset n)) = fun _ => 5 := by
    funext n
    simp [presetFields]
  rw [presetsPart, List.length_flatten, List.map_map, hfields]
  decide

theorem length_lampPart (s : State) (p : Proj) : (lampPart s p).length = 28 := by
  unfold lampPart
  generalize s.alc.get p = a
  simp

theorem length_lampSetupPart (a : Alc) : (lampSetupPart a).length = 24 := by
  have hservice : (serviceFields a.service).length = 10 := by cases a.service <;> simp [serviceFields]
  simp [lampSetupPart, hservice]

theorem length_boothPart (s : State) : (boothPart s).length = 22 := by
  have hfire : (fireFields s.bsu.fire).length = 10 := by cases s.bsu.fire <;> simp [fireFields]
  simp [boothPart, hfire]

theorem length_shuttersPart (b : Bsu) : (shuttersPart b).length = 40 := by
  simp [shuttersPart, shutterFields, Proj.all]

theorem length_projectorData (s : State) (p : Proj) : (projectorData s p).length = 24 := by
  have hwindow : (windowFields (s.trm.get p).window).length = 5 := by
    cases (s.trm.get p).window <;> simp [windowFields]
  simp [projectorData, hwindow]

/-! ## Reads in parts (R193) -/

theorem readScreen_part {obj : Byte} {sc : Screen} (ho : obj.toNat = sc.num) (tag part : Byte) (s : State) :
    readScreen tag obj part s = partReply 0x50 tag part (screenData s sc part.toNat) s := by
  simp only [readScreen, screenOf_eq_some_iff.2 ho]

theorem readAuditorium_part {obj : Byte} {sc : Screen} (ho : obj.toNat = sc.num) (tag part : Byte) (s : State) :
    readAuditorium tag obj part s = partReply 0x53 tag part (auditoriumData s sc part.toNat) s := by
  simp only [readAuditorium, screenOf_eq_some_iff.2 ho]

theorem readLamp_part {obj : Byte} {p : Proj} (ho : obj.toNat = p.num) (tag part : Byte) (s : State) :
    readLamp tag obj part s = partReply 0x52 tag part (lampData s p part.toNat) s := by
  simp only [readLamp, projOf_eq_some_iff.2 ho]

theorem screenData_none {n : Nat} (h : 4 < n) (s : State) (sc : Screen) : screenData s sc n = none := by
  match n, h with
  | n + 5, _ => rfl

theorem auditoriumData_none {n : Nat} (h : 2 < n) (s : State) (sc : Screen) : auditoriumData s sc n = none := by
  match n, h with
  | n + 3, _ => rfl

theorem lampData_none {n : Nat} (h : 1 < n) (s : State) (p : Proj) : lampData s p n = none := by
  match n, h with
  | n + 2, _ => rfl

theorem safetyData_none {n : Nat} (h : 1 < n) (s : State) : safetyData s n = none := by
  match n, h with
  | n + 2, _ => rfl

theorem partReply_some {data : Option (List Byte)} {d : List Byte} (h : data = some d) (kind tag part : Byte)
    (s : State) :
    partReply kind tag part data s = s.reply kind tag .done none (part :: d) := by rw [h]; rfl

theorem partReply_none {data : Option (List Byte)} (h : data = none) (kind tag part : Byte) (s : State) :
    partReply kind tag part data s = s.answer kind tag .noSuch := by rw [h]; rfl

/-! ### What each part begins with -/

theorem screenData_layout (s : State) (sc : Screen) {n : Nat} (hn : n ≤ 4) :
    ∃ data, screenData s sc n = some data ∧ data.length + 2 = [22, 22, 16, 34, 16].getD n 0 ∧
      (let c := s.shc.get sc
       (n = 0 → data.take 5 = [BitVec.ofNat 8 c.state.code, BitVec.ofNat 8 c.prep.code, BitVec.ofNat 8 c.current,
         BitVec.ofNat 8 (c.countdown / 256), BitVec.ofNat 8 c.countdown]) ∧
       (n = 1 → data.take 2 = match c.halt with | some h => [1, BitVec.ofNat 8 h.first.code] | none => [0, 0]) ∧
       (n = 2 → data.take 3 =
         [BitVec.ofNat 8 c.setup.f, BitVec.ofNat 8 (c.setup.l0 / 256), BitVec.ofNat 8 c.setup.l0]) ∧
       (n = 3 → data.take 5 = match c.schedule with | some y => 1 :: bytes4 y.t0 | none => [0, 0, 0, 0, 0]) ∧
       (n = 4 → data.take 2 = [if c.douserA then 1 else 0,
         if (s.bsu.vetoes.get (sc.proj .a)).isNone then 1 else 0])) := by
  match n, hn with
  | 0, _ => exact ⟨_, rfl, by rw [length_screenPart]; rfl, fun _ => by simp [screenPart, bytes1, bytes2], nofun, nofun,
      nofun, nofun⟩
  | 1, _ =>
    refine ⟨_, rfl, by rw [length_haltPart]; rfl, nofun, fun _ => ?_, nofun, nofun, nofun⟩
    unfold haltPart
    cases (s.shc.get sc).halt <;> simp [flag, bytes1]
  | 2, _ => exact ⟨_, rfl, by rw [length_setupPart]; rfl, nofun, nofun, fun _ => by simp [setupPart, bytes1, bytes2],
      nofun,
      nofun⟩
  | 3, _ =>
    refine ⟨_, rfl, by rw [length_schedulePart]; rfl, nofun, nofun, nofun, fun _ => ?_, nofun⟩
    unfold schedulePart
    cases (s.shc.get sc).schedule <;> simp [flag, bytes4, List.replicate_succ]
  | 4, _ =>
    refine ⟨_, rfl, by rw [length_gatePart]; rfl, nofun, nofun, nofun, nofun, fun _ => ?_⟩
    cases sc <;> simp [gatePart, gateFlags, flag, State.douserCommand, State.vetoClear, Shc.douser, Screen.proj,
      Proj.screen, Proj.side] <;> rfl

theorem auditoriumData_layout (s : State) (sc : Screen) {n : Nat} (hn : n ≤ 2) :
    ∃ data, auditoriumData s sc n = some data ∧ data.length + 2 = [35, 42, 42].getD n 0 ∧
      (let h := s.hlc.get sc
       (n = 0 → data.take 1 = [BitVec.ofNat 8 (rankCode h.winner)]) ∧
       (n = 1 → data.take 2 = [BitVec.ofNat 8 (h.house.fade.fine / 256), BitVec.ofNat 8 h.house.fade.fine]) ∧
       (n = 2 → ∀ x, h.presets[0]? = some x →
         data.take 3 = [BitVec.ofNat 8 x.house, BitVec.ofNat 8 x.aisle, BitVec.ofNat 8 x.stage])) := by
  match n, hn with
  | 0, _ => exact ⟨_, rfl, by rw [length_tablePart]; rfl, fun _ => by simp [tablePart, bytes1], nofun, nofun⟩
  | 1, _ => exact ⟨_, rfl, by rw [length_channelsPart]; rfl, nofun, fun _ => by
      simp [channelsPart, channelFields, bytes2], nofun⟩
  | 2, _ =>
    refine ⟨_, rfl, by rw [length_presetsPart]; rfl, nofun, nofun, fun _ x hx => ?_⟩
    have hfirst : (s.hlc.get sc).preset 0 = x := by simp [Hlc.preset, List.getD_eq_getElem?_getD, hx]
    simp [presetsPart, List.range_succ, presetFields, bytes1, hfirst]

theorem lampData_layout (s : State) (p : Proj) {n : Nat} (hn : n ≤ 1) :
    ∃ data, lampData s p n = some data ∧ data.length + 2 = [30, 26].getD n 0 ∧
      (let a := s.alc.get p
       (n = 0 → data.take 2 = [BitVec.ofNat 8 a.state.code, BitVec.ofNat 8 a.lastCause.code]) ∧
       (n = 1 → data.take 3 =
         [BitVec.ofNat 8 (a.setup.vset / 256), BitVec.ofNat 8 a.setup.vset, BitVec.ofNat 8 a.setup.d])) := by
  match n, hn with
  | 0, _ =>
    refine ⟨_, rfl, by rw [length_lampPart]; rfl, fun _ => ?_, nofun⟩
    unfold lampPart
    generalize s.alc.get p = a
    simp [bytes1]
  | 1, _ => exact ⟨_, rfl, by rw [length_lampSetupPart]; rfl, nofun, fun _ => by simp [lampSetupPart, bytes1, bytes2]⟩

theorem safetyData_layout (s : State) {n : Nat} (hn : n ≤ 1) :
    ∃ data, safetyData s n = some data ∧ data.length + 2 = [24, 42].getD n 0 ∧
      (n = 0 → data.take 2 = match s.bsu.fire with | some r => [1, BitVec.ofNat 8 r.first.code] | none => [0, 0]) ∧
      (n = 1 → data.take 2 = [BitVec.ofNat 8 (s.bsu.shutters.get .p1).state.code,
        BitVec.ofNat 8 (s.bsu.shutters.get .p1).reason.code]) := by
  match n, hn with
  | 0, _ =>
    refine ⟨_, rfl, by rw [length_boothPart]; rfl, fun _ => ?_, nofun⟩
    unfold boothPart
    cases h : s.bsu.fire <;> simp [fireFields, h, flag, bytes1]
  | 1, _ => exact ⟨_, rfl, by rw [length_shuttersPart]; rfl, nofun, fun _ => by
      simp [shuttersPart, shutterFields, Proj.all, bytes1]⟩

theorem projectorData_layout (s : State) (p : Proj) :
    (projectorData s p).take 6 = [if (s.trm.get p).motor then 1 else 0, BitVec.ofNat 8 (s.trm.get p).state.code,
      BitVec.ofNat 8 ((s.trm.get p).count / 256), BitVec.ofNat 8 (s.trm.get p).count,
      BitVec.ofNat 8 ((s.trm.get p).runLength.getD 0 / 256), BitVec.ofNat 8 ((s.trm.get p).runLength.getD 0)] ∧
    ((projectorData s p).drop 17).take 2 =
      [BitVec.ofNat 8 (s.trm.get p).stray, if (s.trm.get p).strayOverflow then 1 else 0] := by
  unfold projectorData
  cases h : (s.trm.get p).window <;> simp [windowFields, flag, bytes1, bytes2, half0, h]

/-- Settles O13: lengths field by field, and for each read its object, its part and what the part begins with. -/
theorem repliesAndReadsFollowTheirLayouts : Obligations.RepliesAndReadsFollowTheirLayouts := by
  refine ⟨fun n => ?_, fun n => ⟨?_, ?_⟩, fun r => ⟨fun x hx => ?_, fun hx => ?_, rfl⟩, fun tag obj part s => ?_,
    fun tag proj s => ⟨fun p ho => ?_, fun hno => ?_⟩⟩
  · rw [bodyBytes_length]
    cases n.body <;> rfl
  · exact bodyBytes_take_four n
  · rw [bodyBytes_drop_four]
    cases n.body with
    | restart cause rate => cases cause <;> rfl
    | safety event => cases event <;> rfl
    | mains locked => cases locked <;> rfl
    | _ => rfl
  · simp only [Reply.body, hx]
    rcases r.adjusted with _ | _ | _ <;> rfl
  · unfold Reply.body
    split
    · next x h => exact absurd h (hx x)
    · rcases r.adjusted with _ | _ | _ <;> simp [flag]
  · intro reply
    refine ⟨fun sc ho => ⟨fun n hn hle => ?_, fun hpart => ?_, fun n hn hle => ?_, fun hpart => ?_⟩,
      fun hno => ⟨?_, ?_⟩, fun p ho => ⟨fun n hn hle => ?_, fun hpart => ?_⟩, fun hno => ?_, fun n hn hle => ?_,
      fun hpart => ?_⟩
    · obtain ⟨data, hdata, hlen, hfields⟩ := screenData_layout s sc hle
      refine ⟨data, hdata, hlen, hfields, congrArg _ ((readScreen_part ho _ _ _).trans ?_)⟩
      rw [partReply_some (by rw [hn]; exact hdata)]
      rfl
    · refine congrArg _ ((readScreen_part ho _ _ _).trans ?_)
      rw [partReply_none (screenData_none hpart _ _)]
      rfl
    · obtain ⟨data, hdata, hlen, hfields⟩ := auditoriumData_layout s sc hle
      refine ⟨data, hdata, hlen, hfields, congrArg _ ((readAuditorium_part ho _ _ _).trans ?_)⟩
      rw [partReply_some (by rw [hn]; exact hdata)]
      rfl
    · refine congrArg _ ((readAuditorium_part ho _ _ _).trans ?_)
      rw [partReply_none (auditoriumData_none hpart _ _)]
      rfl
    · change Host.Outcome.next (readScreen _ _ _ _) = _
      simp only [readScreen, screenOf_eq_none_iff.2 hno]
      rfl
    · change Host.Outcome.next (readAuditorium _ _ _ _) = _
      simp only [readAuditorium, screenOf_eq_none_iff.2 hno]
      rfl
    · obtain ⟨data, hdata, hlen, hfields⟩ := lampData_layout s p hle
      refine ⟨data, hdata, hlen, hfields, congrArg _ ((readLamp_part ho _ _ _).trans ?_)⟩
      rw [partReply_some (by rw [hn]; exact hdata)]
      rfl
    · refine congrArg _ ((readLamp_part ho _ _ _).trans ?_)
      rw [partReply_none (lampData_none hpart _ _)]
      rfl
    · change Host.Outcome.next (readLamp _ _ _ _) = _
      simp only [readLamp, projOf_eq_none hno]
      rfl
    · obtain ⟨data, hdata, hlen, hzero, hone⟩ := safetyData_layout s hle
      refine ⟨data, hdata, hlen, hzero, hone, congrArg (Host.Outcome.next (φ := Fault) (ρ := Refusal)) ?_⟩
      unfold readSafety
      rw [partReply_some (by rw [hn]; exact hdata)]
      rfl
    · refine congrArg (Host.Outcome.next (φ := Fault) (ρ := Refusal)) ?_
      unfold readSafety
      rw [partReply_none (safetyData_none hpart _)]
      rfl
  · have hlayout := projectorData_layout s p
    refine ⟨projectorData s p, by rw [length_projectorData], hlayout.1, hlayout.2, ?_⟩
    change Host.Outcome.next (readProjector _ _ _) = _
    simp only [readProjector, projOf_eq_some_iff.2 ho]
    rfl
  · change Host.Outcome.next (readProjector _ _ _) = _
    simp only [readProjector, projOf_eq_none hno]
    rfl

end Sys2Proof.Machine
end

section
namespace Sys2Proof.Machine

variable {s : State} {p : Proj}

/-! ## The lamp operations written out -/

theorem lampChange_eq (s : State) (p : Proj) (new : LampState) (cause : LampCause) :
    s.lampChange p new cause = { s with
      events := s.events ++ [.lampStateChange p new (s.alc.get p).state cause]
      alc := s.alc.set p ((s.alc.get p).enter new cause)
      cnl := s.cnl.raise ⟨s.bck.time, ((s.alc.get p).enter new cause).notice p (s.alc.get p).state⟩ } := by
  simp [State.lampChange, State.modAlc, State.emit, State.note, State.modCnl]

theorem beginStrike_eq (s : State) (p : Proj) (cause : LampCause) :
    s.beginStrike p cause = { s with
      events := s.events ++ [.lampStateChange p .striking (s.alc.get p).state cause]
      alc := s.alc.set p ((s.alc.get p).prepareStrike.enter .striking cause).beginAttempt
      cnl := s.cnl.raise
        ⟨s.bck.time, ((s.alc.get p).prepareStrike.enter .striking cause).notice p (s.alc.get p).state⟩ } := by
  simp [State.beginStrike, lampChange_eq, State.modAlc, Alc.prepareStrike]

theorem enter_of_not_striking {new : LampState} (h : new ≠ .striking) (a : Alc) (cause : LampCause) :
    a.enter new cause = { a with
      state := new, lastCause := cause, strikerTimer := false, attemptTimer := false, coolOffTimer := false } :=
  if_neg h

theorem putOut_of_dark (h : (s.alc.get p).state = .dark) (cause : LampCause) : s.putOut p cause = s := if_pos h

theorem putOut_of_not_dark (h : (s.alc.get p).state ≠ .dark) (cause : LampCause) :
    s.putOut p cause = s.lampChange p .dark cause := if_neg h

/-- The notice of a lamp put out by its owner. -/
theorem notice_extinguished (a : Alc) (p : Proj) (old : LampState) {cause : LampCause}
    (h : cause ≠ .arcEstablished ∧ cause ≠ .noStrike ∧ cause ≠ .arcLost) :
    (a.enter .dark cause).notice p old = .lamp p .dark old cause none none a.vm a.im (a.trim - a.consumed) := by
  obtain ⟨he, hn, hl⟩ := h
  simp [Alc.enter, Alc.notice, Alc.remaining, he, hn, hl]

theorem lit_iff (x : LampState) : x.lit = true ↔ x = .striking ∨ x = .warming ∨ x = .stable := by
  cases x <;> simp [LampState.lit]

theorem strikeRefusal_eq (s : State) (p : Proj) :
    s.strikeRefusal p =
      let a := s.alc.get p
      if a.state = .striking ∨ a.state = .warming ∨ a.state = .stable then some .already
      else if a.trim - a.consumed = 0 then some (.notReady .noTrim)
      else if s.bsu.proven = false then some (.notReady .exhaust)
      else if s.bsu.fire.isSome then some .fireLock
      else none := by
  simp only [State.strikeRefusal, lit_iff]
  rfl

theorem askStrike_of_refusal {r : Result} (h : s.strikeRefusal p = some r) : s.askStrike p = (r, s) := by
  unfold State.askStrike
  rw [h]

theorem askStrike_of_none (h : s.strikeRefusal p = none) : s.askStrike p = (.accepted, s.beginStrike p .struck) := by
  unfold State.askStrike
  rw [h]

/-! ## STRIKE and EXTINGUISH (R99, R107, R108) -/

theorem strike_noSuch {lamp : Byte} (h : ¬(1 ≤ lamp.toNat ∧ lamp.toNat ≤ 8)) (tag : Byte) (s : State) :
    strike (.console tag lamp) s = s.answer 0x38 tag .noSuch := by
  simp only [strike, projOf_eq_none h]

theorem strike_console {lamp : Byte} (h : lamp.toNat = p.num) (tag : Byte) (s : State) :
    strike (.console tag lamp) s = (s.askStrike p).2.answer 0x38 tag (s.askStrike p).1 := by
  simp only [strike, projOf_eq_some_iff.2 h]

theorem extinguish_noSuch {lamp : Byte} (h : ¬(1 ≤ lamp.toNat ∧ lamp.toNat ≤ 8)) (tag : Byte) (s : State) :
    extinguish (.console tag lamp) s = s.answer 0x39 tag .noSuch := by
  simp only [extinguish, projOf_eq_none h]

theorem extinguish_console {lamp : Byte} (h : lamp.toNat = p.num) (tag : Byte) (s : State) :
    extinguish (.console tag lamp) s =
      if (s.alc.get p).state = .dark then s.answer 0x39 tag .already
      else (s.putOut p (.extinguished .console)).answer 0x39 tag .done := by
  simp only [extinguish, projOf_eq_some_iff.2 h]

/-- Settles O44: the refusals of `strikeRefusal`, the two ways a lamp is touched, and the three timers. -/
theorem lampsAreStruckAndPutOut : Obligations.LampsAreStruckAndPutOut := by
  refine ⟨fun tag lamp s => ⟨fun h => ?_, fun p hp => ⟨fun r hr => ⟨?_, ?_⟩, fun hr => ⟨?_, ?_⟩⟩⟩,
    fun tag lamp why s => ⟨fun h => ?_, fun p hp => ⟨fun hd => ⟨?_, ?_, ?_⟩, fun hd => ⟨?_, ?_, ?_⟩⟩⟩,
    fun p s => ⟨rfl, fun ht hl => ?_, fun ht hl => ?_, fun ht => ?_, fun ht => ?_, fun ht => ?_⟩⟩
  · exact congrArg Host.Outcome.next (strike_noSuch h tag _)
  · have hr' : (s.taken (.strike (.console tag lamp))).strikeRefusal p = some r := by rw [strikeRefusal_eq]; exact hr
    exact congrArg Host.Outcome.next (by rw [strike_console hp, askStrike_of_refusal hr']; rfl)
  · have hr' : (s.taken (.strike (.shc p))).strikeRefusal p = some r := by rw [strikeRefusal_eq]; exact hr
    exact congrArg Host.Outcome.next (by simp only [strike, askStrike_of_refusal hr'])
  · have hr' : (s.taken (.strike (.console tag lamp))).strikeRefusal p = none := by rw [strikeRefusal_eq]; exact hr
    exact congrArg Host.Outcome.next (by rw [strike_console hp, askStrike_of_none hr', beginStrike_eq]; rfl)
  · have hr' : (s.taken (.strike (.shc p))).strikeRefusal p = none := by rw [strikeRefusal_eq]; exact hr
    exact congrArg Host.Outcome.next (by simp only [strike, askStrike_of_none hr', beginStrike_eq]; rfl)
  · exact congrArg Host.Outcome.next (extinguish_noSuch h tag _)
  · exact congrArg Host.Outcome.next (by rw [extinguish_console hp]; exact if_pos hd)
  · exact congrArg Host.Outcome.next (putOut_of_dark (by exact hd) _)
  · exact congrArg Host.Outcome.next (putOut_of_dark (by exact hd) _)
  · refine congrArg Host.Outcome.next ?_
    rw [extinguish_console hp, if_neg (by exact hd), putOut_of_not_dark (by exact hd), lampChange_eq,
      notice_extinguished _ _ _ (by decide)]
    rfl
  · refine congrArg Host.Outcome.next ((putOut_of_not_dark (by exact hd) _).trans ?_)
    rw [lampChange_eq, notice_extinguished _ _ _ (by decide)]
    rfl
  · refine congrArg Host.Outcome.next ((putOut_of_not_dark (by exact hd) _).trans ?_)
    rw [lampChange_eq, notice_extinguished _ _ _ (by cases why <;> decide)]
    rfl
  · exact congrArg Host.Outcome.next ((if_pos ht).trans (if_pos hl))
  · refine congrArg Host.Outcome.next (((if_pos ht).trans (if_neg (by omega))).trans ?_)
    rw [lampChange_eq]
    rfl
  · exact congrArg Host.Outcome.next (if_neg (by simp [ht]))
  · exact congrArg Host.Outcome.next (if_pos ht)
  · exact congrArg Host.Outcome.next (if_neg (by simp [ht]))

end Sys2Proof.Machine
end

section
namespace Sys2Proof.Machine

variable {s : State} {p : Proj}

/-! ## The arc sample by the lamp's state (R97) -/

/-- R97: the part with a sample kept, before the work of the lamp's state. -/
def State.sampled (s : State) (p : Proj) (vm im : Nat) : State := s.modAlc p (·.sample vm im)

theorem sampled_alc (s : State) (p : Proj) (vm im : Nat) :
    (s.sampled p vm im).alc.get p = (s.alc.get p).sample vm im := by simp [State.sampled]

theorem arcSample_eq (s : State) (p : Proj) (vm im : Nat) :
    arcSample p vm im s =
      match (s.alc.get p).state with
      | .dark => s.sampled p vm im
      | .failed => s.sampled p vm im
      | .striking =>
        if (s.alc.get p).phase = .attempt then attemptTest p (s.sampled p vm im) else s.sampled p vm im
      | .warming => burningSample p (s.sampled p vm im)
      | .stable => burningSample p (s.sampled p vm im) := by
  have hstate : ((s.modAlc p (·.sample vm im)).alc.get p).state = (s.alc.get p).state := by simp [Alc.sample]
  have hphase : ((s.modAlc p (·.sample vm im)).alc.get p).phase = (s.alc.get p).phase := by simp [Alc.sample]
  unfold arcSample
  simp only [hstate, hphase]
  rfl

theorem arcSample_burning (h : (s.alc.get p).state = .warming ∨ (s.alc.get p).state = .stable) (vm im : Nat) :
    arcSample p vm im s = burningSample p (s.sampled p vm im) := by
  rw [arcSample_eq]
  cases h with
  | inl h => rw [h]
  | inr h => rw [h]

theorem arcSample_attempt (h : (s.alc.get p).state = .striking) (ha : (s.alc.get p).phase = .attempt) (vm im : Nat) :
    arcSample p vm im s = attemptTest p (s.sampled p vm im) := by
  rw [arcSample_eq, h]
  exact if_pos ha

theorem arcSample_no_work (h : (s.alc.get p).state = .dark ∨ (s.alc.get p).state = .failed ∨
    ((s.alc.get p).state = .striking ∧ (s.alc.get p).phase = .coolOff)) (vm im : Nat) :
    arcSample p vm im s = s.sampled p vm im := by
  rw [arcSample_eq]
  obtain h | h | ⟨h, hc⟩ := h
  · rw [h]
  · rw [h]
  · rw [h]
    exact if_neg (by simp [hc])

/-! ## The attempt test (R102) -/

theorem attemptTest_low (h : (s.alc.get p).im < (s.alc.get p).setup.imin) :
    attemptTest p s = s.modAlc p fun a => { a with goodRun := 0 } := if_neg (by omega)

theorem attemptTest_good (h : (s.alc.get p).setup.imin ≤ (s.alc.get p).im) (hg : (s.alc.get p).goodRun < 2) :
    attemptTest p s = s.modAlc p fun a => { a with goodRun := a.goodRun + 1 } :=
  (if_pos h).trans (if_pos (Nat.succ_lt_succ hg))

theorem attemptTest_third (h : (s.alc.get p).setup.imin ≤ (s.alc.get p).im) (hg : 2 ≤ (s.alc.get p).goodRun) :
    attemptTest p s = (s.modAlc p fun a => { a with goodRun := 3, inBand := 0, lowRun := 0 }).lampChange p .warming
      .arcEstablished :=
  (if_pos h).trans (if_neg (Nat.not_lt.2 (Nat.succ_le_succ hg)))

/-! ## A burning arc (R105, R106) -/

theorem restrikeWithheld_eq (s : State) (p : Proj) :
    s.restrikeWithheld p =
      let a := s.alc.get p
      if a.setup.auto = false then some .off
      else if a.trim - a.consumed = 0 then some .noTrim
      else if s.bsu.proven = false then some .exhaust
      else if s.bsu.fire.isSome then some .fire
      else none := rfl

theorem arcLost_withheld {w : Withheld} (h : s.restrikeWithheld p = some w) :
    arcLost p s = (s.modAlc p fun a => { a with withheld := some w }).lampChange p .dark .arcLost := by
  unfold arcLost
  rw [h]

theorem arcLost_restruck (h : s.restrikeWithheld p = none) : arcLost p s = s.beginStrike p .arcLost := by
  unfold arcLost
  rw [h]

/-- R105: a burning arc with the low-current run of the sample counted. -/
def State.lowCounted (s : State) (p : Proj) : State := s.modAlc p fun a => { a with lowRun := a.lowAfter }

theorem lowCounted_alc (s : State) (p : Proj) :
    (s.lowCounted p).alc.get p = { s.alc.get p with lowRun := (s.alc.get p).lowAfter } := by
  simp [State.lowCounted]

theorem lowAfter_low {a : Alc} (h : a.im < a.setup.imin) : a.lowAfter = a.lowRun + 1 := if_pos h

theorem lowAfter_eq (a : Alc) : a.lowAfter = if a.im < a.setup.imin then a.lowRun + 1 else 0 := rfl

theorem burningSample_fifth_low (h : 5 ≤ (s.alc.get p).lowAfter) :
    burningSample p s = arcLost p (s.lowCounted p) :=
  if_pos (show 5 ≤ ((s.lowCounted p).alc.get p).lowRun by rw [lowCounted_alc]; exact h)

theorem burningSample_of_lowAfter (h : (s.alc.get p).lowAfter < 5) :
    burningSample p s =
      let u := feedRegulation p (s.lowCounted p)
      if (u.alc.get p).state = .warming then stabilityTest p u else u :=
  if_neg (show ¬5 ≤ ((s.lowCounted p).alc.get p).lowRun by rw [lowCounted_alc]; exact Nat.not_le.2 h)

/-- Settles O45: the sample kept, then the attempt test or the loss of the arc. -/
theorem arcSampleTestsTheArc : Obligations.ArcSampleTestsTheArc := by
  refine fun p vm im s => ⟨fun h => ?_, fun hs hp => ⟨fun hi => ?_, fun hi hg => ?_, fun hi hg => ?_⟩,
    fun hs hi hl => ⟨fun w hw => ?_, fun hw => ?_⟩⟩
  all_goals refine congrArg Host.Outcome.next ?_
  · exact arcSample_no_work h vm im
  · rw [arcSample_attempt hs hp, attemptTest_low (by rw [sampled_alc]; exact hi)]
    simp [State.sampled, State.modAlc, Alc.sample]
  · rw [arcSample_attempt hs hp, attemptTest_good (by rw [sampled_alc]; exact hi) (by rw [sampled_alc]; exact hg)]
    simp [State.sampled, State.modAlc, Alc.sample]
  · rw [arcSample_attempt hs hp, attemptTest_third (by rw [sampled_alc]; exact hi) (by rw [sampled_alc]; exact hg),
      lampChange_eq]
    simp [State.sampled, State.modAlc, Alc.sample, Alc.enter, Alc.notice, Alc.remaining]
  · have hfive : 5 ≤ ((s.sampled p vm im).alc.get p).lowAfter := by
      rw [sampled_alc, lowAfter_low (by exact hi)]
      exact Nat.succ_le_succ hl
    have hw' : ((s.sampled p vm im).lowCounted p).restrikeWithheld p = some w := by
      rw [restrikeWithheld_eq, lowCounted_alc, sampled_alc]
      exact hw
    have hlow := lowAfter_low (a := (s.alc.get p).sample vm im) hi
    rw [arcSample_burning hs, burningSample_fifth_low hfive, arcLost_withheld hw', lampChange_eq]
    simp [State.sampled, State.lowCounted, State.modAlc, hlow]
    simp [Alc.sample, Alc.enter, Alc.notice, Alc.remaining]
  · have hfive : 5 ≤ ((s.sampled p vm im).alc.get p).lowAfter := by
      rw [sampled_alc, lowAfter_low (by exact hi)]
      exact Nat.succ_le_succ hl
    have hw' : ((s.sampled p vm im).lowCounted p).restrikeWithheld p = none := by
      rw [restrikeWithheld_eq, lowCounted_alc, sampled_alc]
      exact hw
    rw [arcSample_burning hs, burningSample_fifth_low hfive, arcLost_restruck hw', beginStrike_eq]
    simp [State.sampled, State.lowCounted, State.modAlc, Alc.sample, Alc.enter, Alc.notice, Alc.remaining,
      Alc.prepareStrike, Alc.beginAttempt]

end Sys2Proof.Machine
end

section
namespace Sys2Proof.Machine

variable {s : State} {p : Proj}

/-! ## The trim-low comparison (R127) -/

/-- R127: the seconds the served reel still needs at the count of its projector. -/
def State.stillNeeded (s : State) (p : Proj) (v : ServiceRecord) : Nat :=
  secondsNeeded (s.alc.get p) v (s.trm.get p).count

/-- R127: TRIM LOW is due. -/
def State.trimShort (s : State) (p : Proj) (v : ServiceRecord) : Prop :=
  (s.alc.get p).avail < s.stillNeeded p v ∧ v.lowReported = false

/-- The TRIM LOW notice of R127. -/
def State.trimLowNotice (s : State) (p : Proj) (v : ServiceRecord) : Notice :=
  ⟨s.bck.time, .trimLow v.screen p v.bank v.index v.title (s.trm.get p).count v.runFrames (s.alc.get p).avail
    (s.stillNeeded p v) (s.alc.get p).remaining⟩

theorem trimLow_of_none (h : (s.alc.get p).service = none) : s.trimLow p = s := by
  unfold State.trimLow
  simp only [h]

theorem trimLow_of_short {v : ServiceRecord} (h : (s.alc.get p).service = some v) (hs : s.trimShort p v) :
    s.trimLow p = { s with
      alc := s.alc.set p { s.alc.get p with service := some { v with lowReported := true } }
      cnl := s.cnl.raise (s.trimLowNotice p v) } := by
  unfold State.trimLow
  simp only [h]
  exact if_pos hs

theorem trimLow_of_covered {v : ServiceRecord} (h : (s.alc.get p).service = some v) (hs : ¬s.trimShort p v) :
    s.trimLow p = s := by
  unfold State.trimLow
  simp only [h]
  exact if_neg hs

/-- The comparison writes the service record alone and raises no event. -/
theorem trimLow_alc (s : State) (p : Proj) :
    ∃ service, (s.trimLow p).alc.get p = { s.alc.get p with service := service } ∧ (s.trimLow p).events = s.events := by
  cases h : (s.alc.get p).service with
  | none => exact ⟨none, by rw [trimLow_of_none h, ← h], by rw [trimLow_of_none h]⟩
  | some v =>
    by_cases hs : s.trimShort p v
    · exact ⟨_, by rw [trimLow_of_short h hs]; exact Oct.get_set_self .., by rw [trimLow_of_short h hs]⟩
    · exact ⟨some v, by rw [trimLow_of_covered h hs, ← h], by rw [trimLow_of_covered h hs]⟩

/-! ## Feed regulation (R109 to R112) -/

/-- The part after the steps of a sample. -/
def State.fed (s : State) (p : Proj) : State := s.modAlc p Alc.feed

theorem fed_alc (s : State) (p : Proj) : (s.fed p).alc.get p = (s.alc.get p).feed := by simp [State.fed]

theorem feedRegulation_no_step (h : (s.alc.get p).feedSteps = 0) : feedRegulation p s = s.fed p :=
  if_pos (show ((s.fed p).alc.get p).steps = 0 by rw [fed_alc]; exact h)

theorem feedRegulation_steps (h : (s.alc.get p).feedSteps ≠ 0) :
    feedRegulation p s =
      let u := (s.fed p).trimLow p
      if (u.alc.get p).consumed = (u.alc.get p).trim then u.lampChange p .dark .trimOut else u :=
  if_neg (show ¬((s.fed p).alc.get p).steps = 0 by rw [fed_alc]; exact h)

/-- R112: the feed uses the trim up. -/
def Alc.trimOut (a : Alc) : Prop := 0 < a.feedSteps ∧ a.consumed + a.feedSteps = a.trim

/-- R109 to R112: the lamp is fed, goes DARK at the trim out, and stays as it is otherwise, whatever its service record
becomes. -/
theorem feedRegulation_lamp (s : State) (p : Proj) :
    ∃ service, let fed := { (s.alc.get p).feed with service := service }
      let t := feedRegulation p s
      ((s.alc.get p).trimOut → t.alc.get p = fed.enter .dark .trimOut ∧
        t.events = s.events ++ [.lampStateChange p .dark (s.alc.get p).state .trimOut]) ∧
      (¬(s.alc.get p).trimOut → t.alc.get p = fed ∧ t.events = s.events) := by
  by_cases h : (s.alc.get p).feedSteps = 0
  · refine ⟨(s.alc.get p).service, fun ho => absurd h (by have := ho.1; omega), fun _ => ?_⟩
    rw [feedRegulation_no_step h]
    exact ⟨fed_alc s p, rfl⟩
  · obtain ⟨service, halc, hev⟩ := trimLow_alc (s.fed p) p
    rw [fed_alc] at halc
    have hout : ((s.fed p).trimLow p |>.alc.get p).consumed = ((s.fed p).trimLow p |>.alc.get p).trim ↔
        (s.alc.get p).trimOut := by
      rw [halc]
      exact ⟨fun he => ⟨Nat.pos_of_ne_zero h, he⟩, fun ho => ho.2⟩
    refine ⟨service, fun ho => ?_, fun ho => ?_⟩
    · rw [feedRegulation_steps h]
      dsimp only
      rw [if_pos (hout.2 ho), lampChange_eq, halc]
      exact ⟨Oct.get_set_self .., by rw [hev]; rfl⟩
    · rw [feedRegulation_steps h]
      dsimp only
      rw [if_neg (mt hout.1 ho)]
      exact ⟨halc, hev⟩

/-- R127: TRIM LOW is reported once, after steps that leave the trim short. -/
theorem feedRegulation_service {v : ServiceRecord} (h : (s.alc.get p).service = some v) :
    ((s.alc.get p).feedSteps ≠ 0 → (s.fed p).trimShort p v →
      ((feedRegulation p s).alc.get p).service = some { v with lowReported := true } ∧
      Noted (s.cnl.raise ((s.fed p).trimLowNotice p v)) (feedRegulation p s).cnl) ∧
    ((s.alc.get p).feedSteps = 0 ∨ ¬(s.fed p).trimShort p v →
      ((feedRegulation p s).alc.get p).service = some v) := by
  have hfed : ((s.fed p).alc.get p).service = some v := by rw [fed_alc]; exact h
  refine ⟨fun hn hs => ?_, fun hn => ?_⟩
  · rw [feedRegulation_steps hn, trimLow_of_short hfed hs]
    dsimp only
    split
    · have hl := (OnlyLamp.lampChange { s.fed p with
        alc := (s.fed p).alc.set p { (s.fed p).alc.get p with service := some { v with lowReported := true } }
        cnl := (s.fed p).cnl.raise ((s.fed p).trimLowNotice p v) } p .dark .trimOut).2
      refine ⟨?_, hl⟩
      rw [lampChange_eq]
      simp [enter_of_not_striking]
    · exact ⟨by simp, Noted.refl _⟩
  · by_cases h0 : (s.alc.get p).feedSteps = 0
    · rw [feedRegulation_no_step h0]
      exact hfed
    · rw [feedRegulation_steps h0, trimLow_of_covered hfed (hn.resolve_left h0)]
      dsimp only
      split
      · rw [lampChange_eq]
        simp [enter_of_not_striking, hfed]
      · exact hfed

/-! ## The stability test (R104) -/

theorem absDiff_le_iff (a b n : Nat) : absDiff a b ≤ n ↔ a ≤ b + n ∧ b ≤ a + n := by
  unfold absDiff
  omega

/-- R104: the sample lies in the band. -/
def Alc.voltageInBand (a : Alc) : Prop := a.vm ≤ a.setup.vset + a.setup.band ∧ a.setup.vset ≤ a.vm + a.setup.band

theorem stabilityTest_out (h : ¬(s.alc.get p).voltageInBand) :
    stabilityTest p s = s.modAlc p fun a => { a with inBand := 0 } :=
  if_neg (mt (absDiff_le_iff _ _ _).1 h)

theorem stabilityTest_counts (h : (s.alc.get p).voltageInBand) (hn : (s.alc.get p).inBand < 199) :
    stabilityTest p s = s.modAlc p fun a => { a with inBand := a.inBand + 1 } :=
  (if_pos ((absDiff_le_iff _ _ _).2 h)).trans (if_pos (Nat.succ_lt_succ hn))

theorem stabilityTest_stable (h : (s.alc.get p).voltageInBand) (hn : 199 ≤ (s.alc.get p).inBand) :
    stabilityTest p s = (s.modAlc p fun a => { a with inBand := 200 }).lampChange p .stable .stable :=
  (if_pos ((absDiff_le_iff _ _ _).2 h)).trans (if_neg (Nat.not_lt.2 (Nat.succ_le_succ hn)))

/-- The stability test leaves the feed and the service record as they are. -/
theorem stabilityTest_keeps (s : State) (p : Proj) :
    ∃ state cause inBand x y z, (stabilityTest p s).alc.get p = { s.alc.get p with
      state := state, lastCause := cause, inBand := inBand, strikerTimer := x, attemptTimer := y,
      coolOffTimer := z } := by
  by_cases h : (s.alc.get p).voltageInBand
  · by_cases hn : (s.alc.get p).inBand < 199
    · exact ⟨_, _, _, _, _, _, by rw [stabilityTest_counts h hn]; exact Oct.get_set_self ..⟩
    · refine ⟨.stable, .stable, 200, false, false, false, ?_⟩
      rw [stabilityTest_stable h (by omega), lampChange_eq]
      simp [enter_of_not_striking]
  · exact ⟨_, _, _, _, _, _, by rw [stabilityTest_out h]; exact Oct.get_set_self ..⟩

/-! ## A sample of a burning arc -/

/-- R97: the lamp record of a burning arc before its feed. -/
def Alc.counted (a : Alc) (vm im : Nat) : Alc := { a.sample vm im with lowRun := (a.sample vm im).lowAfter }

/-- The part before the feed of a burning arc. -/
def State.counted (s : State) (p : Proj) (vm im : Nat) : State := (s.sampled p vm im).lowCounted p

theorem counted_alc (s : State) (p : Proj) (vm im : Nat) :
    (s.counted p vm im).alc.get p = (s.alc.get p).counted vm im := by
  rw [State.counted, lowCounted_alc, sampled_alc]
  rfl

theorem arcSample_feeds {vm im : Nat} (hs : (s.alc.get p).state = .warming ∨ (s.alc.get p).state = .stable)
    (hl : (s.alc.get p).setup.imin ≤ min 255 im ∨ (s.alc.get p).lowRun < 4) :
    arcSample p vm im s =
      let t := feedRegulation p (s.counted p vm im)
      if (t.alc.get p).state = .warming then stabilityTest p t else t := by
  have hlow : ((s.sampled p vm im).alc.get p).lowAfter < 5 := by
    rw [sampled_alc, lowAfter_eq]
    by_cases h : ((s.alc.get p).sample vm im).im < ((s.alc.get p).sample vm im).setup.imin
    · rw [if_pos h]
      exact Nat.succ_lt_succ (hl.resolve_left (Nat.not_le.2 h))
    · rw [if_neg h]
      decide
  rw [arcSample_burning hs, burningSample_of_lowAfter hlow]
  rfl

/-- The fields that a sample of a burning arc writes whatever comes of it, and the frame. -/
theorem arcSample_feed_fields {vm im : Nat} (hs : (s.alc.get p).state = .warming ∨ (s.alc.get p).state = .stable)
    (hl : (s.alc.get p).setup.imin ≤ min 255 im ∨ (s.alc.get p).lowRun < 4) :
    ∃ state cause inBand x y z, (arcSample p vm im s).alc.get p = { ((s.alc.get p).counted vm im).feed with
      state := state, lastCause := cause, inBand := inBand, strikerTimer := x, attemptTimer := y, coolOffTimer := z
      service := ((feedRegulation p (s.counted p vm im)).alc.get p).service } := by
  rw [arcSample_feeds hs hl]
  obtain ⟨service, hout, hno⟩ := feedRegulation_lamp (s.counted p vm im) p
  simp only [counted_alc] at hout hno
  by_cases ho : ((s.alc.get p).counted vm im).trimOut
  · have hd := (hout ho).1
    dsimp only
    rw [if_neg (by rw [hd]; simp [Alc.enter]), hd, enter_of_not_striking (by decide)]
    exact ⟨_, _, _, _, _, _, rfl⟩
  · have hf := (hno ho).1
    dsimp only
    split
    · obtain ⟨state, cause, inBand, x, y, z, hst⟩ := stabilityTest_keeps (feedRegulation p (s.counted p vm im)) p
      rw [hst, hf]
      exact ⟨_, _, _, _, _, _, rfl⟩
    · rw [hf]
      exact ⟨_, _, _, _, _, _, rfl⟩

theorem arcSample_feed_noted {vm im : Nat} (hs : (s.alc.get p).state = .warming ∨ (s.alc.get p).state = .stable)
    (hl : (s.alc.get p).setup.imin ≤ min 255 im ∨ (s.alc.get p).lowRun < 4) :
    Noted (feedRegulation p (s.counted p vm im)).cnl (arcSample p vm im s).cnl := by
  rw [arcSample_feeds hs hl]
  dsimp only
  split
  · exact (OnlyLamp.stabilityTest _ _).2
  · exact Noted.refl _

/-- Settles O46: the feed and the trim low by `feedRegulation_lamp` and `feedRegulation_service`, then the stability
test of a lamp that is still WARMING. -/
theorem feedFollowsCurrentAndVoltage : Obligations.FeedFollowsCurrentAndVoltage := by
  intro p vm im s x a v i y sum base wanted steps out inBand hs hl
  have heq := arcSample_feeds (vm := vm) hs hl
  have hsteps : (a.counted vm im).feedSteps = steps := Nat.min_comm _ _
  have houtiff : (a.counted vm im).trimOut ↔ out := by rw [Alc.trimOut, hsteps]; exact Iff.rfl
  obtain ⟨service, hout, hno⟩ := feedRegulation_lamp (s.counted p vm im) p
  rw [counted_alc, show (s.counted p vm im).events = s.events from rfl, show s.alc.get p = a from rfl, houtiff]
    at hout hno
  refine ⟨arcSample p vm im s, rfl, (OnlyLamp.arcSample s p vm im).1, ?_⟩
  obtain ⟨state, cause, inBand', t1, t2, t3, hd⟩ := arcSample_feed_fields (vm := vm) hs hl
  refine ⟨by rw [hd]; rfl, by rw [hd]; rfl, by rw [hd]; rfl, by rw [hd]; exact hsteps,
    by rw [hd]; exact congrArg (a.consumed + ·) hsteps, by rw [hd]; rfl, by rw [hd]; rfl, by rw [hd]; rfl,
    fun ho => ?_, fun ho hst => ?_, fun ho hst hin hn => ?_, fun ho hst hin hn => ?_, fun ho hst hin => ?_,
    fun r hr => ?_⟩
  · obtain ⟨hlamp, hev⟩ := hout ho
    rw [heq]
    dsimp only
    rw [if_neg (by rw [hlamp]; simp [Alc.enter]), hlamp]
    exact ⟨rfl, rfl, hev⟩
  · obtain ⟨hlamp, hev⟩ := hno ho
    have hstable : ((a.counted vm im).feed).state = .stable := hst
    rw [heq]
    dsimp only
    rw [if_neg (by rw [hlamp]; simp [hstable]), hlamp]
    exact ⟨hstable, rfl, hev⟩
  · obtain ⟨hlamp, hev⟩ := hno ho
    have hwarm : ((feedRegulation p (s.counted p vm im)).alc.get p).state = .warming := by rw [hlamp]; exact hst
    rw [heq]
    dsimp only
    rw [if_pos hwarm, stabilityTest_stable (by rw [hlamp]; exact hin) (by rw [hlamp]; exact hn), lampChange_eq]
    simp [enter_of_not_striking, hev, hwarm]
  · obtain ⟨hlamp, hev⟩ := hno ho
    have hwarm : ((feedRegulation p (s.counted p vm im)).alc.get p).state = .warming := by rw [hlamp]; exact hst
    rw [heq]
    dsimp only
    rw [if_pos hwarm, stabilityTest_counts (by rw [hlamp]; exact hin) (by rw [hlamp]; exact hn)]
    simp only [State.modAlc_alc, Oct.get_set_self, State.modAlc_events]
    exact ⟨hwarm, by rw [hlamp]; rfl, hev⟩
  · obtain ⟨hlamp, hev⟩ := hno ho
    have hwarm : ((feedRegulation p (s.counted p vm im)).alc.get p).state = .warming := by rw [hlamp]; exact hst
    rw [heq]
    dsimp only
    rw [if_pos hwarm, stabilityTest_out (by rw [hlamp]; exact hin)]
    simp only [State.modAlc_alc, Oct.get_set_self, State.modAlc_events]
    exact ⟨hwarm, trivial, hev⟩
  · intro n need avail
    have hserv : ((s.counted p vm im).alc.get p).service = some r := by rw [counted_alc]; exact hr
    obtain ⟨hshort, hcovered⟩ := feedRegulation_service hserv
    have hfed : ((s.counted p vm im).fed p).alc.get p = (a.counted vm im).feed := by rw [fed_alc, counted_alc]
    have hrem : ((a.counted vm im).feed).remaining = a.trim - (a.consumed + steps) := by rw [← hsteps]; rfl
    have havail : (((s.counted p vm im).fed p).alc.get p).avail = avail := by
      rw [hfed, Alc.avail, hrem]
      rfl
    have hneed : ((s.counted p vm im).fed p).stillNeeded p r = need := by
      rw [State.stillNeeded, hfed]
      rfl
    rw [counted_alc, hsteps, State.trimShort, havail, hneed] at hshort hcovered
    have hservice : ((arcSample p vm im s).alc.get p).service =
        ((feedRegulation p (s.counted p vm im)).alc.get p).service := by rw [hd]
    rw [hservice]
    refine ⟨fun hpos hlt hrep => ?_, fun h => ?_⟩
    · obtain ⟨hnew, hnote⟩ := hshort (by omega) ⟨hlt, hrep⟩
      rw [State.trimLowNotice, havail, hneed, hfed, hrem] at hnote
      exact ⟨hnew, hnote.trans (arcSample_feed_noted hs hl)⟩
    · rw [hr]
      refine hcovered ?_
      obtain h0 | hle | hrep := h
      · exact .inl h0
      · exact .inr fun hk => absurd hk.1 (Nat.not_lt.2 hle)
      · exact .inr fun hk => by simp [hrep] at hk

end Sys2Proof.Machine
end

section
namespace Sys2Proof.Machine

variable {s : State} {p : Proj} {sc : Screen}

/-! ## SET SCREEN (R27, R28, R93) -/

/-- R27, 10.6: every field of SET SCREEN that is refused, not clamped, lies in its range. -/
def FieldsGood (x : ScreenFields) : Prop :=
  (x.f.toNat = 24 ∨ x.f.toNat = 25) ∧ x.cueMode.toNat ≤ 1 ∧ x.policy.toNat ≤ 1 ∧
    (x.limit.toNat = 4 ∨ x.limit.toNat = 8 ∨ x.limit.toNat = 16 ∨ x.limit.toNat = 32) ∧
    x.preShow.toNat ≤ 7 ∧ x.brk.toNat ≤ 7 ∧ x.fin.toNat ≤ 7

/-- The setup SET SCREEN writes. -/
def setupAsked (x : ScreenFields) : ScreenSetup :=
  { f := x.f.toNat, l0 := max 96 (min 384 x.l0.toNat),
    cueMode := if x.cueMode.toNat = 0 then .counted else .sensed, w := min 96 x.w.toNat,
    allowance := max 48 (min 480 x.allowance.toNat), policy := if x.policy.toNat = 0 then .hold else .run,
    grace := min 1800 x.grace.toNat, limit := x.limit.toNat, preShow := x.preShow.toNat, brk := x.brk.toNat,
    fin := x.fin.toNat }

theorem cueModeOf_eq (n : Nat) :
    cueModeOf n = if n ≤ 1 then some (if n = 0 then .counted else .sensed) else none := by
  match n with
  | 0 => rfl
  | 1 => rfl
  | n + 2 => rfl

theorem policyOf_eq (n : Nat) : policyOf n = if n ≤ 1 then some (if n = 0 then .hold else .run) else none := by
  match n with
  | 0 => rfl
  | 1 => rfl
  | n + 2 => rfl

theorem screenSetupOf_good {x : ScreenFields} (h : FieldsGood x) : screenSetupOf x = some (setupAsked x) := by
  obtain ⟨hf, hcue, hpolicy, hlimit, hpresets⟩ := h
  unfold screenSetupOf
  rw [cueModeOf_eq, policyOf_eq, if_pos hcue, if_pos hpolicy]
  refine if_pos ⟨?_, ?_, hpresets⟩
  · simpa [BitVec.toNat_eq] using hf
  · simpa [BitVec.toNat_eq] using hlimit

theorem screenSetupOf_bad {x : ScreenFields} (h : ¬FieldsGood x) : screenSetupOf x = none := by
  unfold screenSetupOf
  rw [cueModeOf_eq, policyOf_eq]
  by_cases hcue : x.cueMode.toNat ≤ 1
  · by_cases hpolicy : x.policy.toNat ≤ 1
    · rw [if_pos hcue, if_pos hpolicy]
      refine if_neg fun hk => h ?_
      obtain ⟨hf, hlimit, hpresets⟩ := hk
      exact ⟨by simpa [BitVec.toNat_eq] using hf, hcue, hpolicy, by simpa [BitVec.toNat_eq] using hlimit, hpresets⟩
    · rw [if_pos hcue, if_neg hpolicy]
  · rw [if_neg hcue]

theorem changesRun_iff (held asked : ScreenSetup) :
    changesRun held asked = true ↔ held.f ≠ asked.f ∨ held.l0 ≠ asked.l0 ∨ held.allowance ≠ asked.allowance := by
  simp [changesRun]
  grind

theorem screenClamped_eq (x : ScreenFields) :
    screenClamped x = !(96 ≤ x.l0.toNat && x.l0.toNat ≤ 384 && x.w.toNat ≤ 96 && 48 ≤ x.allowance.toNat &&
      x.allowance.toNat ≤ 480 && x.grace.toNat ≤ 1800) := by
  rw [Bool.eq_iff_iff]
  simp only [screenClamped, Bool.or_eq_true, Bool.not_eq_true', Bool.and_eq_false_iff, decide_eq_true_eq,
    decide_eq_false_iff_not]
  omega

theorem setScreen_noSuch {screen : Byte} (h : ¬(1 ≤ screen.toNat ∧ screen.toNat ≤ 4)) (tag : Byte) (x : ScreenFields)
    (s : State) : setScreen tag screen x s = s.answerSet 0x20 tag .noSuch false := by
  simp only [setScreen, screenOf_eq_none_iff.2 h]

theorem setScreen_badField {screen : Byte} {x : ScreenFields} (h : screen.toNat = sc.num) (hx : ¬FieldsGood x)
    (tag : Byte)
    (s : State) : setScreen tag screen x s = s.answerSet 0x20 tag .badField false := by
  simp only [setScreen, screenOf_eq_some_iff.2 h, screenSetupOf_bad hx]

theorem setScreen_good {screen : Byte} {x : ScreenFields} (h : screen.toNat = sc.num) (hx : FieldsGood x) (tag : Byte)
    (s : State) : setScreen tag screen x s =
      if (s.shc.get sc).state ≠ .idle ∧ changesRun (s.shc.get sc).setup (setupAsked x) = true then
        s.answerSet 0x20 tag .busy false
      else (s.modShc sc fun c => { c with setup := setupAsked x }).answerSet 0x20 tag .done (screenClamped x) := by
  simp only [setScreen, screenOf_eq_some_iff.2 h, screenSetupOf_good hx]

/-! ## SET TRIM (R117) -/

theorem setTrim_noSuch {lamp : Byte} (h : ¬(1 ≤ lamp.toNat ∧ lamp.toNat ≤ 8)) (tag : Byte) (length : Half) (s : State) :
    setTrim tag lamp length s = s.answerSet 0x3A tag .noSuch false := by
  simp only [setTrim, projOf_eq_none h]

theorem setTrim_of_lamp {lamp : Byte} (h : lamp.toNat = p.num) (tag : Byte) (length : Half) (s : State) :
    setTrim tag lamp length s =
      if (s.alc.get p).state.lit then s.answerSet 0x3A tag .busy false
      else (s.fitTrim p (min 16000 length.toNat)).answerSet 0x3A tag .done (16000 < length.toNat) := by
  simp only [setTrim, projOf_eq_some_iff.2 h]
  rfl

theorem fitTrim_dark (h : (s.alc.get p).state ≠ .failed) (length : Nat) :
    s.fitTrim p length = (s.modAlc p (·.newTrim length)).emit (.setTrimAccepted p) := by
  simp [State.fitTrim, h]

theorem fitTrim_failed (h : (s.alc.get p).state = .failed) (length : Nat) :
    s.fitTrim p length = (((s.modAlc p (·.newTrim length)).modAlc p fun a => { a with withheld := none }).lampChange p
      .dark .trimSet).emit (.setTrimAccepted p) := by
  simp [State.fitTrim, h]

/-! ## SET LAMP (R113) -/

theorem setLamp_noSuch {lamp : Byte} (h : ¬(1 ≤ lamp.toNat ∧ lamp.toNat ≤ 8)) (tag : Byte) (x : LampFields)
    (s : State) :
    setLamp tag lamp x s = s.answerSet 0x21 tag .noSuch false := by
  simp only [setLamp, projOf_eq_none h]

theorem setLamp_of_lamp {lamp : Byte} (h : lamp.toNat = p.num) (tag : Byte) (x : LampFields) (s : State) :
    setLamp tag lamp x s =
      if x.auto = 0 ∨ x.auto = 1 then
        (s.modAlc p fun a => { a with setup := lampSetupOf x }).answerSet 0x21 tag .done (lampClamped x)
      else s.answerSet 0x21 tag .badField false := by
  simp only [setLamp, projOf_eq_some_iff.2 h]

/-- R113: the clamps of the ranges that one byte cannot leave are no clamps. -/
theorem lampSetupOf_eq (x : LampFields) :
    lampSetupOf x =
      { vset := max 200 (min 600 x.vset.toNat), d := min 50 x.d.toNat, kf := x.kf.toNat,
        band := max 5 (min 100 x.band.toNat), b := max 1 x.b.toNat, inom := max 30 (min 150 x.inom.toNat),
        imin := max 10 (min (max 30 (min 150 x.inom.toNat)) x.imin.toNat), lead := max 30 (min 600 x.lead.toNat),
        limit := max 1 (min 8 x.limit.toNat), margin := min 600 x.margin.toNat, auto := decide (x.auto = 1) } := by
  have hb : clamp 1 255 x.b.toNat = max 1 x.b.toNat := by
    have := x.b.isLt
    unfold clamp
    omega
  simp only [lampSetupOf, hb]
  simp [clamp]

theorem clamped_self_iff {lo hi n : Nat} (h : lo ≤ hi) : max lo (min hi n) = n ↔ lo ≤ n ∧ n ≤ hi := by omega

theorem lampClamped_eq_false_iff (x : LampFields) :
    lampClamped x = false ↔
      200 ≤ x.vset.toNat ∧ x.vset.toNat ≤ 600 ∧ x.d.toNat ≤ 50 ∧ 5 ≤ x.band.toNat ∧ x.band.toNat ≤ 100 ∧
      1 ≤ x.b.toNat ∧ 30 ≤ x.inom.toNat ∧ x.inom.toNat ≤ 150 ∧ 10 ≤ x.imin.toNat ∧
      x.imin.toNat ≤ max 30 (min 150 x.inom.toNat) ∧ 30 ≤ x.lead.toNat ∧ x.lead.toNat ≤ 600 ∧ 1 ≤ x.limit.toNat ∧
      x.limit.toNat ≤ 8 ∧ x.margin.toNat ≤ 600 := by
  have hinom : 10 ≤ max 30 (min 150 x.inom.toNat) := le_max_of_le_left (by decide)
  simp only [lampClamped, lampSetupOf_eq, Bool.not_eq_false', Bool.and_eq_true, decide_eq_true_eq,
    clamped_self_iff hinom,
    clamped_self_iff (show 200 ≤ 600 by decide), clamped_self_iff (show 5 ≤ 100 by decide),
    clamped_self_iff (show 30 ≤ 150 by decide), clamped_self_iff (show 30 ≤ 600 by decide),
    clamped_self_iff (show 1 ≤ 8 by decide), min_eq_right_iff, max_eq_right_iff, and_assoc]

/-- Settles O25: SET SCREEN by its fields, SET TRIM by the lamp's state, SET LAMP by its auto-restrike code. -/
theorem setupsAndTrimsAreWritten : Obligations.SetupsAndTrimsAreWritten := by
  refine ⟨fun tag screen x s => ⟨fun h => ?_, fun sc h => ⟨fun hx => ?_, fun hx hs hc => ?_, fun hx hc => ?_⟩⟩,
    fun tag lamp length s => ⟨fun h => ?_, fun p h => ⟨fun hs => ?_, fun hs => ?_, fun hs => ?_⟩⟩,
    fun tag lamp x s => ⟨fun h => ?_, fun p h => ⟨fun h0 h1 => ?_, fun h0 => ⟨lampClamped x, ?_, ?_⟩⟩⟩⟩
  · exact congrArg Host.Outcome.next (setScreen_noSuch h tag x _)
  · exact congrArg Host.Outcome.next (setScreen_badField h hx tag _)
  · exact congrArg Host.Outcome.next ((setScreen_good h hx tag _).trans (if_pos ⟨hs, (changesRun_iff _ _).2 hc⟩))
  · refine congrArg Host.Outcome.next ((setScreen_good h hx tag _).trans ((if_neg ?_).trans ?_))
    · exact fun hk => hc.elim hk.1 fun hn => hn ((changesRun_iff _ _).1 hk.2)
    · rw [screenClamped_eq]
      rfl
  · exact congrArg Host.Outcome.next (setTrim_noSuch h tag length _)
  · exact congrArg Host.Outcome.next ((setTrim_of_lamp h tag length _).trans (if_pos ((lit_iff _).2 hs)))
  · refine congrArg Host.Outcome.next ((setTrim_of_lamp h tag length _).trans ((if_neg ?_).trans ?_))
    · exact fun hk => by simp [hs, LampState.lit] at hk
    · rw [fitTrim_dark (by exact fun hk => by simp [hs] at hk)]
      rfl
  · refine congrArg Host.Outcome.next ((setTrim_of_lamp h tag length _).trans ((if_neg ?_).trans ?_))
    · exact fun hk => by simp [hs, LampState.lit] at hk
    · rw [fitTrim_failed (by exact hs), lampChange_eq]
      simp [State.modAlc, enter_of_not_striking, Alc.newTrim, Alc.notice, Alc.remaining, hs, State.emit,
        State.answerSet, State.reply, State.modCnl]
  · exact congrArg Host.Outcome.next (setLamp_noSuch h tag x _)
  · exact congrArg Host.Outcome.next ((setLamp_of_lamp h tag x _).trans (if_neg (not_or.2 ⟨h0, h1⟩)))
  · exact lampClamped_eq_false_iff x
  · refine congrArg Host.Outcome.next ((setLamp_of_lamp h tag x _).trans ((if_pos h0).trans ?_))
    rw [lampSetupOf_eq]
    rfl

end Sys2Proof.Machine
end

section
namespace Sys2Proof.Machine

variable {s : State} {sc : Screen} {h k : Hlc}

/-! ## The source table (R134, R136) -/

@[simp] theorem Hlc.rank_setRank_self (h : Hlc) (r : Rank) (x : Option LightRequest) : (h.setRank r x).rank r = x := by
  cases r <;> rfl

theorem Hlc.rank_setRank_ne (h : Hlc) {q r : Rank} (x : Option LightRequest) (hq : q ≠ r) :
    (h.setRank r x).rank q = h.rank q := by
  cases r <;> cases q <;> first | rfl | exact absurd rfl hq

@[simp] theorem Hlc.channel_setRank (h : Hlc) (r : Rank) (x : Option LightRequest) (ch : Channel) :
    (h.setRank r x).channel ch = h.channel ch := by cases r <;> rfl

theorem Hlc.stored_setRank (h : Hlc) (r : Rank) (x : Option LightRequest) :
    (h.setRank r x).presets = h.presets ∧ (h.setRank r x).floor = h.floor := by cases r <;> exact ⟨rfl, rfl⟩

/-- R136: `k` is `h` but for its channels. -/
def SameTable (h k : Hlc) : Prop :=
  (∀ r, k.rank r = h.rank r) ∧ k.presets = h.presets ∧ k.floor = h.floor

theorem SameTable.winner (hk : SameTable h k) : k.winner = h.winner := by
  have hfire : k.fire = h.fire := hk.1 .fire
  have hhalt : k.halt = h.halt := hk.1 .halt
  have hconsole : k.console = h.console := hk.1 .console
  have hshow : k.show_ = h.show_ := hk.1 .show_
  simp only [Hlc.winner, hfire, hhalt, hconsole, hshow]

theorem sameTable_fadeTo (h : Hlc) (q : LightRequest) : SameTable h (h.fadeTo q) :=
  ⟨fun r => by cases r <;> rfl, rfl, rfl⟩

theorem sameTable_holdAll (h : Hlc) : SameTable h h.holdAll := ⟨fun r => by cases r <;> rfl, rfl, rfl⟩

theorem SameTable.refl (h : Hlc) : SameTable h h := ⟨fun _ => rfl, rfl, rfl⟩

theorem sameTable_arbitrate (before : Option Rank) (r : Rank) (written : Bool) (h : Hlc) :
    SameTable h (h.arbitrate before r written) := by
  unfold Hlc.arbitrate
  split
  · split
    · split
      · exact sameTable_fadeTo _ _
      · exact .refl _
    · exact .refl _
  · split
    · split
      · split
        · exact sameTable_fadeTo _ _
        · exact .refl _
      · exact sameTable_holdAll _
    · exact .refl _

theorem fadesTo_fadeTo (h : Hlc) (q : LightRequest) : FadesTo h (h.fadeTo q) q := fun ch => by cases ch <;> rfl

theorem winner_fire (h : Hlc) : h.winner = some .fire ↔ h.fire.isSome = true := by
  simp only [Hlc.winner]
  grind

theorem winner_halt (h : Hlc) : h.winner = some .halt ↔ h.fire = none ∧ h.halt.isSome = true := by
  simp only [Hlc.winner, ← Option.not_isSome_iff_eq_none]
  grind

theorem winner_console (h : Hlc) :
    h.winner = some .console ↔ h.fire = none ∧ h.halt = none ∧ h.console.isSome = true := by
  simp only [Hlc.winner, ← Option.not_isSome_iff_eq_none]
  grind

theorem winner_show (h : Hlc) :
    h.winner = some .show_ ↔ h.fire = none ∧ h.halt = none ∧ h.console = none ∧ h.show_.isSome = true := by
  simp only [Hlc.winner, ← Option.not_isSome_iff_eq_none]
  grind

theorem winner_none (h : Hlc) :
    h.winner = none ↔ h.fire = none ∧ h.halt = none ∧ h.console = none ∧ h.show_ = none := by
  simp only [Hlc.winner, ← Option.not_isSome_iff_eq_none]
  grind

/-! ## A rank changed and arbitrated (R136, R137) -/

theorem change_winner (h : Hlc) (r : Rank) (x : Option LightRequest) :
    (h.change r x).winner = (h.setRank r x).winner := (sameTable_arbitrate _ _ _ _).winner

theorem change_rank (h : Hlc) (r q : Rank) (x : Option LightRequest) :
    (h.change r x).rank q = (h.setRank r x).rank q := (sameTable_arbitrate _ _ _ _).1 q

theorem change_rank_self (h : Hlc) (r : Rank) (x : Option LightRequest) : (h.change r x).rank r = x := by
  rw [change_rank, Hlc.rank_setRank_self]

theorem change_rank_ne (h : Hlc) {q r : Rank} (x : Option LightRequest) (hq : q ≠ r) :
    (h.change r x).rank q = h.rank q := by rw [change_rank, Hlc.rank_setRank_ne _ _ hq]

theorem change_stored (h : Hlc) (r : Rank) (x : Option LightRequest) :
    (h.change r x).presets = h.presets ∧ (h.change r x).floor = h.floor := by
  obtain ⟨-, hp, hf⟩ := sameTable_arbitrate h.winner r x.isSome (h.setRank r x)
  obtain ⟨hp', hf'⟩ := h.stored_setRank r x
  exact ⟨hp.trans hp', hf.trans hf'⟩

theorem fadesTo_of_setRank {r : Rank} {x : Option LightRequest} {q : LightRequest}
    (hk : FadesTo (h.setRank r x) k q) : FadesTo h k q := fun ch => by rw [hk ch, Hlc.channel_setRank]

theorem change_wins {r : Rank} {q : LightRequest} (hw : (h.change r (some q)).winner = some r) :
    FadesTo h (h.change r (some q)) q := by
  rw [change_winner] at hw
  refine fadesTo_of_setRank (r := r) (x := some q) ?_
  unfold Hlc.change Hlc.arbitrate
  simp only [Option.isSome_some, if_true, hw, Hlc.rank_setRank_self]
  exact fadesTo_fadeTo _ _

theorem change_loses {r : Rank} {q : LightRequest} (hw : (h.change r (some q)).winner ≠ some r) :
    KeepsChannels h (h.change r (some q)) := by
  rw [change_winner] at hw
  intro ch
  unfold Hlc.change Hlc.arbitrate
  simp only [Option.isSome_some, if_true, if_neg hw, Hlc.channel_setRank]

theorem change_released_below {r : Rank} (hw : h.winner ≠ some r) : KeepsChannels h (h.change r none) := by
  intro ch
  unfold Hlc.change Hlc.arbitrate
  simp [hw]

theorem change_hands {r r' : Rank} {q : LightRequest} (hb : h.winner = some r)
    (hw : (h.change r none).winner = some r') (hq : (h.change r none).rank r' = some q) :
    FadesTo h (h.change r none) q := by
  rw [change_winner] at hw
  rw [change_rank] at hq
  refine fadesTo_of_setRank (r := r) (x := none) ?_
  unfold Hlc.change Hlc.arbitrate
  simp only [Option.isSome_none, Bool.false_eq_true, if_false, hb, if_true, hw, hq]
  exact fadesTo_fadeTo _ _

theorem change_held {r : Rank} (hb : h.winner = some r) (hw : (h.change r none).winner = none) (ch : Channel) :
    (h.change r none).channel ch = { h.channel ch with
      fade := ⟨(h.channel ch).fade.fine, (h.channel ch).fade.fine, (h.channel ch).fade.fine, 0, 0⟩ } := by
  rw [change_winner] at hw
  rw [← Hlc.channel_setRank h r none]
  unfold Hlc.change Hlc.arbitrate
  simp only [Option.isSome_none, Bool.false_eq_true, if_false, hb, if_true, hw]
  cases ch <;> rfl

theorem lightsNotice_some {before : Option Rank} {r : Rank} {q : LightRequest} (hw : h.winner = some r)
    (hq : h.rank r = some q) :
    lightsNotice sc before h = .lights sc before (some r) q.house q.aisle q.stage q.fade (some q.origin) := by
  simp only [lightsNotice, hw, hq]

theorem lightsNotice_none {before : Option Rank} (hw : h.winner = none) :
    lightsNotice sc before h = .lights sc before none (h.output .house) (h.output .aisle) (h.output .stage) 0 none := by
  simp only [lightsNotice, hw]

/-- R134 to R138: what a change of rank does, by the winner before it and after it. -/
theorem rankChanged_changeRank (s : State) (sc : Screen) (r : Rank) (x : Option LightRequest) :
    RankChanged s (s.changeRank sc r x) sc r x := by
  obtain ⟨hnew, hunsaid, hsaid, hframe⟩ := changeRank_spec s sc r x
  refine { frame := hframe, written := ?_, others := ?_, stored := ?_, wins := ?_, loses := ?_, hands := ?_,
           held := ?_, lower := ?_, unsaid := ?_, said := ?_, none_ := ?_ }
  all_goals rw [hnew]
  · exact change_rank_self _ _ _
  · exact fun q hq => change_rank_ne _ _ hq
  · exact change_stored _ _ _
  · rintro q rfl hw
    exact change_wins hw
  · intro hx hw
    obtain ⟨q, rfl⟩ := Option.isSome_iff_exists.1 hx
    exact change_loses hw
  · rintro r' q rfl hb hw hq
    exact change_hands hb hw hq
  · rintro rfl hb hw ch
    exact change_held hb hw ch
  · rintro rfl hb
    exact change_released_below hb
  · exact hunsaid
  · intro r' q hw hb hq
    rw [hsaid (by rw [hw]; exact hb.symm), lightsNotice_some hw hq]
  · intro hw hb
    rw [hsaid (by rw [hw]; exact hb.symm), lightsNotice_none hw]

/-! ## SET LIGHTS and RELEASE LIGHTS (R140, R141) -/

theorem preset_of_some {n : Nat} {y : Preset} (hy : h.presets[n]? = some y) : h.preset n = y := by
  simp [Hlc.preset, List.getD_eq_getElem?_getD, hy]

theorem setLights_noSuch {aud : Byte} (ha : ¬(1 ≤ aud.toNat ∧ aud.toNat ≤ 4)) (tag mode preset house aisle stage : Byte)
    (fade : Half) (s : State) :
    setLights tag aud mode preset house aisle stage fade s = s.answerSet 0x40 tag .noSuch false := by
  simp only [setLights, screenOf_eq_none_iff.2 ha]

theorem lightsAsked_badField {mode : Byte} (h0 : mode ≠ 0) (h1 : mode ≠ 1) (h : Hlc) (preset house aisle stage : Byte)
    (fade : Half) : lightsAsked h mode preset house aisle stage fade = .inl .badField :=
  (if_neg h0).trans (if_neg h1)

theorem lightsAsked_noSuch {preset : Byte} (hp : 8 ≤ preset.toNat) (h : Hlc) (house aisle stage : Byte) (fade : Half) :
    lightsAsked h 0 preset house aisle stage fade = .inl .noSuch := by
  simp [lightsAsked, presetOf, Nat.not_lt.2 hp]

theorem lightsAsked_preset {preset : Byte} {y : Preset} (hp : preset.toNat < 8)
    (hy : h.presets[preset.toNat]? = some y) (house aisle stage : Byte) (fade : Half) :
    lightsAsked h 0 preset house aisle stage fade =
      .inr ⟨y.house, y.aisle, y.stage, min 600 fade.toNat, .preset preset.toNat⟩ := by
  simp [lightsAsked, presetOf, hp, preset_of_some hy]

theorem lightsAsked_explicit (h : Hlc) (preset house aisle stage : Byte) (fade : Half) :
    lightsAsked h 1 preset house aisle stage fade =
      .inr ⟨house.toNat, aisle.toNat, stage.toNat, min 600 fade.toNat, .explicit⟩ := rfl

/-- An accepted SET LIGHTS writes the CONSOLE rank and is answered. -/
theorem setLights_asked {aud mode preset house aisle stage : Byte} {fade : Half} {q : LightRequest}
    (ha : aud.toNat = sc.num)
    (hq : lightsAsked (s.hlc.get sc) mode preset house aisle stage fade = .inr q) (tag : Byte) :
    setLights tag aud mode preset house aisle stage fade s =
      (s.changeRank sc .console (some q)).answerSet 0x40 tag .done (600 < fade.toNat) := by
  simp only [setLights, screenOf_eq_some_iff.2 ha, hq]

theorem setLights_refused {aud mode preset house aisle stage : Byte} {fade : Half} {r : Result}
    (ha : aud.toNat = sc.num)
    (hr : lightsAsked (s.hlc.get sc) mode preset house aisle stage fade = .inl r) (tag : Byte) :
    setLights tag aud mode preset house aisle stage fade s = s.answerSet 0x40 tag r false := by
  simp only [setLights, screenOf_eq_some_iff.2 ha, hr]

theorem releaseLights_noSuch {aud : Byte} (ha : ¬(1 ≤ aud.toNat ∧ aud.toNat ≤ 4)) (tag : Byte) (s : State) :
    releaseLights tag aud s = s.answer 0x41 tag .noSuch := by
  simp only [releaseLights, screenOf_eq_none_iff.2 ha]

theorem releaseLights_of_screen {aud : Byte} (ha : aud.toNat = sc.num) (tag : Byte) (s : State) :
    releaseLights tag aud s =
      if (s.hlc.get sc).console.isSome then (s.changeRank sc .console none).answer 0x41 tag .done
      else s.answer 0x41 tag .already := by
  simp only [releaseLights, screenOf_eq_some_iff.2 ha]

/-- Settles O49: the winner rank by rank, then each write and release as a change of rank. -/
theorem ranksAreWrittenReleasedAndArbitrated : Obligations.RanksAreWrittenReleasedAndArbitrated := by
  refine ⟨fun h => ⟨winner_fire h, winner_halt h, winner_console h, winner_show h, winner_none h⟩,
    fun sc rank n y tag aud mode preset house aisle stage fade s => ⟨fun hy => ⟨_, rfl, ?_⟩,
      ⟨_, rfl, rankChanged_changeRank _ _ _ _⟩, ⟨_, rfl, rankChanged_changeRank _ _ _ _⟩,
      ⟨_, rfl, rankChanged_changeRank _ _ _ _⟩, fun ha => ⟨?_, ?_⟩, fun ha =>
        ⟨fun h0 h1 => ?_, ?_, ?_, ?_, fun hc => ?_,
        fun hc => ⟨_, rankChanged_changeRank _ _ _ _, ?_⟩⟩⟩⟩
  · have hreq : ((s.hlc.get sc).preset n).request n = ⟨y.house, y.aisle, y.stage, y.fade, .preset n⟩ := by
      rw [preset_of_some hy]
      rfl
    rw [← hreq]
    cases rank with
    | show_ => exact rankChanged_changeRank _ _ _ _
    | halt => exact rankChanged_changeRank _ _ _ _
  · exact congrArg Host.Outcome.next (setLights_noSuch ha _ _ _ _ _ _ _ _)
  · exact congrArg Host.Outcome.next (releaseLights_noSuch ha _ _)
  · exact congrArg Host.Outcome.next (setLights_refused (s := s.taken _) ha (lightsAsked_badField h0 h1 _ _ _ _ _ _) _)
  · rintro rfl hp
    exact congrArg Host.Outcome.next (setLights_refused (s := s.taken _) ha (lightsAsked_noSuch hp _ _ _ _ _) _)
  · rintro rfl hp hy
    exact ⟨_, rankChanged_changeRank _ _ _ _,
      congrArg Host.Outcome.next (setLights_asked (s := s.taken _) ha (lightsAsked_preset hp hy _ _ _ _) _)⟩
  · rintro rfl
    exact ⟨_, rankChanged_changeRank _ _ _ _,
      congrArg Host.Outcome.next (setLights_asked (s := s.taken _) ha (lightsAsked_explicit _ _ _ _ _ _) _)⟩
  · exact congrArg Host.Outcome.next ((releaseLights_of_screen ha _ _).trans (if_neg (by simp [hc])))
  · exact congrArg Host.Outcome.next ((releaseLights_of_screen ha _ _).trans (if_pos hc))

end Sys2Proof.Machine
end

section
namespace Sys2Proof.Machine

variable {s : State} {sc : Screen}

/-! ## Fades (R143) -/

theorem fade_tick_finished {x : Fade} (h : x.ticks = 0) : x.tick = x := if_pos h

theorem fade_tick_running {x : Fade} (h : 0 < x.ticks) :
    x.tick = { x with
      fine := ((x.fine : Int) + ((x.target : Int) - (x.fine : Int)).tdiv (x.ticks : Int)).toNat
      ticks := x.ticks - 1 } :=
  if_neg (by omega)

/-- A difference divided, truncated towards zero, does not pass the difference. -/
theorem tdiv_between (d : Int) (n : Nat) : min 0 d ≤ d.tdiv n ∧ d.tdiv n ≤ max 0 d := by
  obtain hd | hd := Int.le_total 0 d
  · have hnonneg : 0 ≤ d.tdiv n := Int.tdiv_nonneg hd (Int.natCast_nonneg n)
    have hle : d.tdiv n ≤ d := Int.tdiv_le_self n hd
    omega
  · have hnonneg : 0 ≤ (-d).tdiv n := Int.tdiv_nonneg (by omega) (Int.natCast_nonneg n)
    have hle : (-d).tdiv n ≤ -d := Int.tdiv_le_self n (by omega)
    rw [Int.neg_tdiv] at hnonneg hle
    omega

/-- The step's level, before it is read as a number. -/
theorem fade_tick_fine {x : Fade} (h : 0 < x.ticks) :
    (x.tick.fine : Int) = x.fine + ((x.target : Int) - x.fine).tdiv x.ticks := by
  have := tdiv_between ((x.target : Int) - x.fine) x.ticks
  rw [fade_tick_running h]
  exact Int.toNat_of_nonneg (by omega)

theorem fade_tick_between (x : Fade) :
    min x.fine x.target ≤ x.tick.fine ∧ x.tick.fine ≤ max x.fine x.target := by
  obtain h | h := Nat.eq_zero_or_pos x.ticks
  · rw [fade_tick_finished h]
    omega
  · have := tdiv_between ((x.target : Int) - x.fine) x.ticks
    have := fade_tick_fine h
    omega

theorem fade_tick_last {x : Fade} (h : x.ticks = 1) : x.tick.fine = x.target := by
  have := fade_tick_fine (x := x) (by omega)
  rw [h] at this
  simp only [Nat.cast_one, Int.tdiv_one] at this
  omega

theorem fade_tick_record (x : Fade) : x.tick = { x with fine := x.tick.fine, ticks := x.ticks - 1 } := by
  obtain h | h := Nat.eq_zero_or_pos x.ticks
  · rw [fade_tick_finished h, h]
    cases x
    simp_all
  · rw [fade_tick_running h]

/-- A fade after `n` ticks. -/
def Fade.ticked (x : Fade) : Nat → Fade
  | 0 => x
  | n + 1 => x.tick.ticked n

theorem ticked_record (x : Fade) (n : Nat) :
    x.ticked n = { x with fine := (x.ticked n).fine, ticks := x.ticks - n } := by
  induction n generalizing x with
  | zero => rfl
  | succ n ih =>
    rw [Fade.ticked, ih, fade_tick_record]
    simp [Nat.sub_sub, Nat.add_comm]

theorem tick_target (x : Fade) : x.tick.target = x.target := by rw [fade_tick_record]

theorem tick_ticks (x : Fade) : x.tick.ticks = x.ticks - 1 := by rw [fade_tick_record]

theorem ticked_between (x : Fade) (n : Nat) :
    min x.fine x.target ≤ (x.ticked n).fine ∧ (x.ticked n).fine ≤ max x.fine x.target := by
  induction n generalizing x with
  | zero => simp [Fade.ticked]
  | succ n ih =>
    have hstep := fade_tick_between x
    have hrest := ih x.tick
    rw [tick_target] at hrest
    rw [Fade.ticked]
    omega

theorem ticked_finished {x : Fade} (h : x.ticks = 0) (n : Nat) : (x.ticked n).fine = x.fine := by
  induction n with
  | zero => rfl
  | succ n ih => rw [Fade.ticked, fade_tick_finished h, ih]

theorem ticked_to_target {x : Fade} {n : Nat} (h : 0 < x.ticks) (hn : x.ticks ≤ n) : (x.ticked n).fine = x.target := by
  induction n generalizing x with
  | zero => omega
  | succ n ih =>
    rw [Fade.ticked]
    by_cases h1 : x.ticks = 1
    · rw [ticked_finished (by rw [tick_ticks, h1]), fade_tick_last h1]
    · rw [ih (by rw [tick_ticks]; omega) (by rw [tick_ticks]; omega), tick_target]

/-- An auditorium after `n` fade ticks. -/
def Hlc.ticked (h : Hlc) : Nat → Hlc
  | 0 => h
  | n + 1 => h.tick.ticked n

theorem hlcTicked_stored (h : Hlc) (n : Nat) :
    (∀ r, (h.ticked n).rank r = h.rank r) ∧ (h.ticked n).presets = h.presets ∧ (h.ticked n).floor = h.floor := by
  induction n generalizing h with
  | zero => exact ⟨fun _ => rfl, rfl, rfl⟩
  | succ n ih =>
    obtain ⟨hr, hp, hf⟩ := ih h.tick
    exact ⟨fun r => (hr r).trans (by cases r <;> rfl), hp, hf⟩

theorem hlcTicked_channel (h : Hlc) (n : Nat) (ch : Channel) :
    (h.ticked n).channel ch = { h.channel ch with fade := (h.channel ch).fade.ticked n } := by
  induction n generalizing h with
  | zero => rfl
  | succ n ih =>
    rw [Hlc.ticked, ih]
    cases ch <;> rfl

theorem execAll_fadeTicks (sc : Screen) (n : Nat) (s : State) :
    execAll (List.replicate n (.fadeTick sc)) s = .next (s.modHlc sc (·.ticked n)) := by
  induction n generalizing s with
  | zero => simp [execAll, State.modHlc, Hlc.ticked]
  | succ n ih =>
    refine (ih (s.modHlc sc Hlc.tick)).trans ?_
    simp [State.modHlc, Hlc.ticked]

/-- Settles O50: every channel's fade after `n` ticks, by induction on the ticks. -/
theorem fadeReachesItsTarget : Obligations.FadeReachesItsTarget := by
  intro sc n s
  obtain ⟨hranks, hpresets, hfloor⟩ := hlcTicked_stored (s.hlc.get sc) n
  refine ⟨_, execAll_fadeTicks sc n s, keeps_modHlc _ _ _, ?_⟩
  simp only [State.modHlc_hlc, Quad.get_set_self]
  refine ⟨hranks, hpresets, hfloor, fun ch => ?_⟩
  rw [hlcTicked_channel]
  refine ⟨congrArg (fun f => ({ (s.hlc.get sc).channel ch with fade := f } : ChannelRec)) (ticked_record _ n),
    (ticked_between _ n).1, (ticked_between _ n).2, fun h => ticked_finished h n, fun h hn => ticked_to_target h hn, ?_⟩
  rintro rfl h
  exact fade_tick_fine h

/-! ## The mains phase tracker (R148 to R150) -/

theorem goodRunAfter_outside {q : Nat} (h : q < 7000 ∨ 11000 < q) (run : List Nat) :
    goodRunAfter run q = [] ∧ joins run q = false := by
  refine ⟨if_pos h, ?_⟩
  have hrange : (Config.intervalLow ≤ q && q ≤ Config.intervalHigh) = false := by
    rw [Bool.and_eq_false_iff, decide_eq_false_iff_not, decide_eq_false_iff_not, Nat.not_le, Nat.not_le]
    exact h
  simp [joins, hrange]

theorem goodRunAfter_first {q : Nat} (h : 7000 ≤ q ∧ q ≤ 11000) : goodRunAfter [] q = [q] ∧ joins [] q = true := by
  refine ⟨if_neg (not_or.2 ⟨Nat.not_lt.2 h.1, Nat.not_lt.2 h.2⟩), ?_⟩
  have hrange : (Config.intervalLow ≤ q && q ≤ Config.intervalHigh) = true := by
    rw [Bool.and_eq_true, decide_eq_true_iff, decide_eq_true_iff]
    exact h
  simp [joins, hrange]

/-- R148: with an interval `l` before it, the tolerance decides whether the interval joins the run. -/
theorem goodRunAfter_next {run : List Nat} {l q : Nat} (h : 7000 ≤ q ∧ q ≤ 11000) (hl : run.getLast? = some l) :
    goodRunAfter run q =
      (if absDiff q l * 100 ≤ 3 * l then (if run.length < 8 then run else run.drop 1) ++ [q] else [q]) ∧
    joins run q = decide (absDiff q l * 100 ≤ 3 * l) := by
  have hrange : (Config.intervalLow ≤ q && q ≤ Config.intervalHigh) = true := by
    rw [Bool.and_eq_true, decide_eq_true_iff, decide_eq_true_iff]
    exact h
  refine ⟨(if_neg (not_or.2 ⟨Nat.not_lt.2 h.1, Nat.not_lt.2 h.2⟩)).trans ?_, ?_⟩
  · simp only [hl]
    rfl
  · simp [joins, hrange, hl]

theorem tolerance_iff (q l : Nat) :
    absDiff q l * 100 ≤ 3 * l ↔ (q - l) * 100 ≤ 3 * l ∧ (l - q) * 100 ≤ 3 * l := by
  unfold absDiff
  omega

/-- R148: the run after an interval, by the three rows of its table. -/
theorem goodRunAfter_of {held run : List Nat} {q : Nat} {good : Bool}
    (h : ((q < 7000 ∨ 11000 < q) ∧ run = [] ∧ good = false) ∨
      (7000 ≤ q ∧ q ≤ 11000 ∧ held = [] ∧ run = [q] ∧ good = true) ∨
      (7000 ≤ q ∧ q ≤ 11000 ∧ ∃ l, held.getLast? = some l ∧ (q - l) * 100 ≤ 3 * l ∧ (l - q) * 100 ≤ 3 * l ∧
        run = (if held.length < 8 then held else held.drop 1) ++ [q] ∧ good = true) ∨
      (7000 ≤ q ∧ q ≤ 11000 ∧ ∃ l, held.getLast? = some l ∧ (3 * l < (q - l) * 100 ∨ 3 * l < (l - q) * 100) ∧
        run = [q] ∧ good = false)) :
    goodRunAfter held q = run ∧ joins held q = good := by
  obtain ⟨hq, rfl, rfl⟩ | ⟨hlo, hhi, rfl, rfl, rfl⟩ | ⟨hlo, hhi, l, hl, hd, he, rfl, rfl⟩ |
    ⟨hlo, hhi, l, hl, hd, rfl, rfl⟩ := h
  · exact goodRunAfter_outside hq held
  · exact goodRunAfter_first ⟨hlo, hhi⟩
  · obtain ⟨hrun, hjoins⟩ := goodRunAfter_next ⟨hlo, hhi⟩ hl
    have ht := (tolerance_iff q l).2 ⟨hd, he⟩
    exact ⟨hrun.trans (if_pos ht), hjoins.trans (decide_eq_true ht)⟩
  · obtain ⟨hrun, hjoins⟩ := goodRunAfter_next ⟨hlo, hhi⟩ hl
    have ht : ¬absDiff q l * 100 ≤ 3 * l := fun hk => by
      have := (tolerance_iff q l).1 hk
      omega
    exact ⟨hrun.trans (if_neg ht), hjoins.trans (decide_eq_false ht)⟩

theorem zeroCross_first (h : s.mpt.previous = none) (time : Nat) :
    zeroCross time s = s.modMpt fun m => { m with previous := some time, silenceTimer := true } := by
  simp only [zeroCross, h]

theorem zeroCross_next {z : Nat} (h : s.mpt.previous = some z) (time : Nat) :
    zeroCross time s = mainsInterval (time - z) (s.modMpt fun m =>
      { m with previous := some time, silenceTimer := true, lastInterval := some (min 65535 (time - z)) }) := by
  simp only [zeroCross, h]

theorem mainsInterval_unlocked {q : Nat} {run : List Nat} (hl : s.mpt.locked = false)
    (hr : goodRunAfter s.mpt.run q = run) (hn : run.length ≠ 8) :
    mainsInterval q s = s.modMpt fun m => { m with run := run } := by
  have hn' : run.length ≠ Config.lockRun := hn
  simp [mainsInterval, hl, hr, hn']

theorem mainsInterval_locks {q : Nat} {run : List Nat} (hl : s.mpt.locked = false)
    (hr : goodRunAfter s.mpt.run q = run) (hn : run.length = 8) :
    mainsInterval q s = (((s.modMpt fun m =>
      { m with run := run, locked := true, halfPeriod := runMean run }).lockChanges true).note
      (.mains true .locked (runMean run) q)).halfCycles (runMean run) := by
  have hn' : run.length = Config.lockRun := hn
  simp only [mainsInterval, hl, hr, hn', Bool.false_eq_true, if_false, if_true]

theorem mainsInterval_good {q : Nat} {run : List Nat} (hl : s.mpt.locked = true)
    (hr : goodRunAfter s.mpt.run q = run) (hg : joins s.mpt.run q = true) :
    mainsInterval q s = (s.modMpt fun m => { m with run := run, halfPeriod := runMean run }).halfCycles
      (runMean run) := by
  simp only [mainsInterval, hl, hr, hg, if_true]

theorem mainsInterval_unlocks {q : Nat} {run : List Nat} (hl : s.mpt.locked = true)
    (hr : goodRunAfter s.mpt.run q = run) (hg : joins s.mpt.run q = false) :
    mainsInterval q s = ((s.modMpt fun m => { m with run := run, locked := false }).lockChanges false).note
      (.mains false .interval s.mpt.halfPeriod (min 65535 q)) := by
  simp only [mainsInterval, hl, hr, hg, if_true, Bool.false_eq_true, if_false]

theorem silence_stopped (h : s.mpt.silenceTimer = false) : silence s = s := if_neg (by simp [h])

theorem silence_unlocked (h : s.mpt.silenceTimer = true) (hl : s.mpt.locked = false) :
    silence s = s.modMpt fun m => { m with previous := none, run := [], silenceTimer := false, locked := false } :=
  (if_pos h).trans (if_neg (by simp [hl]))

theorem silence_locked (h : s.mpt.silenceTimer = true) (hl : s.mpt.locked = true) :
    silence s = ((s.modMpt fun m =>
      { m with previous := none, run := [], silenceTimer := false, locked := false }).lockChanges false).note
      (.mains false .silence s.mpt.halfPeriod 0) :=
  (if_pos h).trans (if_pos hl)

/-! ## Firing (R151, R152) -/

theorem halfCycle_eq (c : ChannelRec) (l p : Nat) :
    c.halfCycle l p =
      let d := p * (255 - (l * l + 127) / 255) / 256
      if l = 0 then { c with delay := none, timer := false }
      else if d = 0 then { c with delay := some 0, timer := false, pulses := c.pulses + 1 }
      else { c with delay := some d, timer := true } := by
  unfold ChannelRec.halfCycle firingDelay
  by_cases hl : l = 0
  · simp [hl]
  · rw [if_neg hl]
    dsimp only
    rw [if_neg hl]
    cases hd : p * (255 - (l * l + 127) / 255) / 256 with
    | zero => simp
    | succ d => simp

@[simp] theorem Hlc.channel_setChannel_self (h : Hlc) (ch : Channel) (c : ChannelRec) :
    (h.setChannel ch c).channel ch = c := by cases ch <;> rfl

theorem Hlc.channel_setChannel_ne (h : Hlc) {ch other : Channel} (c : ChannelRec) (hne : other ≠ ch) :
    (h.setChannel ch c).channel other = h.channel other := by
  cases ch <;> cases other <;> first | rfl | exact absurd rfl hne

theorem sameTable_setChannel (h : Hlc) (ch : Channel) (c : ChannelRec) : SameTable h (h.setChannel ch c) := by
  cases ch <;> exact ⟨fun r => by cases r <;> rfl, rfl, rfl⟩

/-- Settles O51: the run of good intervals by R148's table, then the lock, and the dimmers channel by channel. -/
theorem mainsLockAndDimmers : Obligations.MainsLockAndDimmers := by
  refine ⟨fun time s => ⟨fun h => ?_, fun z hz => ?_, fun h => ?_, fun h => ⟨fun hl => ?_, fun hl => ?_⟩⟩,
    fun sc period ch locked s => ⟨?_, ⟨_, rfl, keeps_modHlc _ _ _, ?_⟩, fun hl => ?_, fun hl => ?_⟩⟩
  · exact congrArg Host.Outcome.next (zeroCross_first h time)
  · intro q taken full run good h
    obtain ⟨hrun, hjoins⟩ := goodRunAfter_of h
    refine ⟨fun hl hn => ?_, fun hl hn => ?_, fun hl hg => ?_, fun hl hg => ?_⟩
    all_goals refine congrArg Host.Outcome.next ((zeroCross_next hz time).trans ?_)
    · exact mainsInterval_unlocked (s := s.modMpt _) hl hrun hn
    · refine (mainsInterval_locks (by exact hl) (by exact hrun) hn).trans ?_
      simp [State.halfCycles, State.lockChanges, State.emitAll, State.note, State.modCnl, State.modMpt, runMean,
        Config.lockRun, Screen.all, taken, q]
    · exact mainsInterval_good (s := s.modMpt _) hl hrun (hjoins.trans hg)
    · exact mainsInterval_unlocks (s := s.modMpt _) hl hrun (hjoins.trans hg)
  · exact congrArg Host.Outcome.next (silence_stopped h)
  · exact congrArg Host.Outcome.next (silence_unlocked h hl)
  · exact congrArg Host.Outcome.next (silence_locked h hl)
  · refine congrArg Host.Outcome.next ?_
    simp [State.modHlc, Hlc.halfCycle, halfCycle_eq, Hlc.output, outputLevel]
  · obtain ⟨hranks, hpresets, hfloor⟩ := sameTable_setChannel (s.hlc.get sc) ch ((s.hlc.get sc).channel ch).fire
    simp only [State.modHlc_hlc, Quad.get_set_self, Hlc.channel_setChannel_self]
    exact ⟨rfl, fun other hne => Hlc.channel_setChannel_ne _ _ hne, hranks, hpresets, hfloor⟩
  · rw [hl]
    rfl
  · rw [hl]
    rfl

end Sys2Proof.Machine
end

section
namespace Sys2Proof.Machine

variable {s : State} {p : Proj} {sc : Screen}

/-! ## Shutters moved (R155, R158, R161) -/

theorem putDown_of_up (h : (s.bsu.shutters.get p).state ≠ .dropped) (reason : DropReason) :
    s.putDown p reason = { s with
      bsu := { s.bsu with
        shutters := s.bsu.shutters.set p
          { s.bsu.shutters.get p with state := .dropped, reason := reason, raiseTimer := false } }
      cnl := s.cnl.raise (s.dropNotice p reason) } := by
  simp [State.putDown, h, State.moveShutter, State.modBsu, Bsu.modShutter, Shutter.enter, State.note, State.modCnl,
    State.dropNotice]

/-- Settles O52: the shutter down or put down, the veto set, the stop and the event handed out. -/
theorem breaksCloseTheirProjectorOff : Obligations.BreaksCloseTheirProjectorOff := by
  intro p count kind s
  refine ⟨fun h => ?_, fun h => ?_, fun h => ?_, fun h => ?_⟩
  · cases kind
    · exact congrArg Host.Outcome.next
        (by rw [State.breakAt, putDown_of_dropped (by exact h)]; rfl : (s.taken _).breakAt p .filmBreak count = _)
    · exact congrArg Host.Outcome.next
        (by rw [State.breakAt, putDown_of_dropped (by exact h)]; rfl : (s.taken _).breakAt p .stall count = _)
  · cases kind
    · exact congrArg Host.Outcome.next
        (by rw [State.breakAt, putDown_of_up (by exact h)]; rfl : (s.taken _).breakAt p .filmBreak count = _)
    · exact congrArg Host.Outcome.next
        (by rw [State.breakAt, putDown_of_up (by exact h)]; rfl : (s.taken _).breakAt p .stall count = _)
  · exact congrArg (fun e => Host.Outcome.next ((s.taken (.refusedStart p)).emit e)) (if_pos h)
  · exact congrArg (fun e => Host.Outcome.next ((s.taken (.refusedStart p)).emit e))
      (if_neg (show ¬s.bsu.fire.isSome = true by simp [h]))

/-! ## The fire state latched (R163, R164) -/

theorem fireWrites_hlc {scs : List Screen} (h : scs.Nodup) (s : State) (sc : Screen) :
    (s.fireWrites scs).hlc.get sc =
      if sc ∈ scs then (s.hlc.get sc).change .fire (some fireRequest) else s.hlc.get sc := by
  induction scs generalizing s with
  | nil => simp [State.fireWrites]
  | cons x scs ih =>
    obtain ⟨hx, hscs⟩ := List.nodup_cons.1 h
    rw [State.fireWrites, ih hscs]
    have hspec := changeRank_spec s x .fire (some fireRequest)
    by_cases hsc : sc = x
    · subst hsc
      rw [if_neg hx, if_pos (by simp)]
      exact hspec.1
    · have hkept : (s.writeFireRank x).hlc.get sc = s.hlc.get sc := hspec.2.2.2 (.hlc sc) (by simp [hsc])
      simp [hkept, hsc]

theorem fireReleases_hlc {scs : List Screen} (h : scs.Nodup) (s : State) (sc : Screen) :
    (s.fireReleases scs).hlc.get sc = if sc ∈ scs then (s.hlc.get sc).change .fire none else s.hlc.get sc := by
  induction scs generalizing s with
  | nil => simp [State.fireReleases]
  | cons x scs ih =>
    obtain ⟨hx, hscs⟩ := List.nodup_cons.1 h
    rw [State.fireReleases, ih hscs]
    have hspec := changeRank_spec s x .fire none
    by_cases hsc : sc = x
    · subst hsc
      rw [if_neg hx, if_pos (by simp)]
      exact hspec.1
    · have hkept : (s.releaseFireRank x).hlc.get sc = s.hlc.get sc := hspec.2.2.2 (.hlc sc) (by simp [hsc])
      simp [hkept, hsc]

/-- R135: the FIRE rank written wins with full levels at once. -/
theorem change_fire (h : Hlc) (ch : Channel) :
    (((h.change .fire (some fireRequest)).channel ch).fade.fine = 65280) ∧
    (((h.change .fire (some fireRequest)).channel ch).fade.ticks = 0) := by
  have hrank : (h.change .fire (some fireRequest)).fire = some fireRequest := change_rank_self h .fire _
  have hwins := change_wins ((winner_fire (h.change .fire (some fireRequest))).2 (by rw [hrank]; rfl))
  rw [hwins ch]
  cases ch <;> exact ⟨rfl, rfl⟩

theorem firstRecord_eq (reason : FireReason) (time : Nat) (x : Option Proj) :
    FireRecord.first_ reason time x =
      ⟨reason, decide (reason = .input), decide (reason = .portLink), decide (reason = .alarm), time, x⟩ := by
  cases reason <;> rfl

/-- The part with the fire state latched, before the light ranks are written. -/
def State.fireHanded (s : State) (reason : FireReason) (x : Option Proj) : State :=
  ((s.allDown.modBsu fun _ => s.latchedBsu reason x).emitAll fireHandouts).noteSafety .fireLatched none

/-- R163, R164: the latch does all that `FireLatched` says. -/
theorem fireLatched_latchFire (s : State) (reason : FireReason) (x : Option Proj) :
    FireLatched s (s.latchFire reason x) reason x := by
  have heq : s.latchFire reason x = (s.fireHanded reason x).fireWrites Screen.all := latchFire_eq s reason x
  obtain ⟨hkeep, hnoted⟩ := fireWrites_keeps Screen.all (s.fireHanded reason x)
  have hdown := allDown_keeps s
  have hbsu : (s.latchFire reason x).bsu = s.latchedBsu reason x := by
    rw [heq]
    exact hkeep .bsu (by decide)
  refine { frame := ?_, record := ?_, shutters := ?_, vetoes := ?_, rest := ?_, handed := ?_, lights := ?_, told := ?_ }
  · rw [heq]
    refine KeepsAllBut.trans ?_ (hkeep.mono (by decide))
    exact (((hdown.mono (by simp)).trans ((keeps_modBsu _ _).mono (by simp))).trans
      ((keeps_emitAll _ _).mono (by simp))).trans ((keeps_note _ _).mono (by simp))
  · rw [hbsu, ← firstRecord_eq]
    rfl
  · intro p
    rw [hbsu]
    exact latchedBsu_shutter s reason x p
  · intro p
    rw [hbsu]
    exact Oct.get_const _ _
  · rw [hbsu]
    rfl
  · have hev : s.allDown.events = s.events := hdown .events (by decide)
    rw [heq, show ((s.fireHanded reason x).fireWrites Screen.all).events = (s.fireHanded reason x).events from
      hkeep .events (by decide)]
    exact congrArg (· ++ fireHandouts) hev
  · intro sc
    have hhlc : (s.latchFire reason x).hlc.get sc = (s.hlc.get sc).change .fire (some fireRequest) := by
      have hkept : s.allDown.hlc.get sc = s.hlc.get sc := hdown (.hlc sc) (by simp)
      rw [heq, fireWrites_hlc (by decide), if_pos (mem_allScreen sc)]
      exact congrArg (fun h => h.change .fire (some fireRequest)) hkept
    rw [hhlc]
    exact ⟨change_rank_self _ .fire _, fun rank hr => change_rank_ne _ _ hr, fun ch => change_fire _ ch⟩
  · obtain ⟨lights, hlights⟩ := hnoted
    refine ⟨lights, ?_⟩
    have hbck : s.allDown.bck = s.bck := hdown .bck (by decide)
    have hcnl : (s.fireHanded reason x).cnl = s.allDown.cnl.raise ⟨s.bck.time, .safety .fireLatched true
        (decide (reason = .input)) (decide (reason = .portLink)) (decide (reason = .alarm)) (some reason) x
        s.bsu.estop.isSome s.bsu.proven none⟩ := by
      have hrec : (s.latchedBsu reason x).fire = some ⟨reason, decide (reason = .input), decide (reason = .portLink),
          decide (reason = .alarm), s.bck.time, x⟩ := by
        rw [← firstRecord_eq]
        rfl
      simp only [State.fireHanded, State.noteSafety, State.note_cnl, State.emitAll_bck, State.modBsu_bck, hbck,
        State.emitAll_bsu, State.modBsu_bsu, State.emitAll_cnl, State.modBsu_cnl, safetyNotice, hrec]
      rfl
    dsimp only
    rw [heq, hlights, hcnl, allDown_cnl, List.foldl_append, List.foldl_append]
    rfl

/-! ## Raising and dropping (R156 to R158) -/

theorem raiseRefusal_eq (s : State) (p : Proj) :
    s.raiseRefusal p =
      let y := s.bsu.shutters.get p
      if y.state = .raising ∨ y.state = .raised then some .already
      else if s.bsu.fire.isSome then some .fireLock
      else if (s.trm.get p).loopClosed ≠ some true then some (.notReady .loop)
      else if (s.trm.get p).state ≠ .stopped then some (.notReady .transport)
      else if y.up = some true then some (.notReady .sensor)
      else none := by
  have hup : (s.bsu.shutters.get p).state ≠ .dropped ↔
      (s.bsu.shutters.get p).state = .raising ∨ (s.bsu.shutters.get p).state = .raised := by
    cases (s.bsu.shutters.get p).state <;> decide
  simp only [State.raiseRefusal, hup]
  rfl

theorem raiseShutter_noSuch {proj : Byte} (h : ¬(1 ≤ proj.toNat ∧ proj.toNat ≤ 8)) (tag : Byte) (s : State) :
    raiseShutter tag proj s = s.answer 0x48 tag .noSuch := by
  simp only [raiseShutter, projOf_eq_none h]

theorem raiseShutter_refused {proj : Byte} {r : Result} (h : proj.toNat = p.num) (hr : s.raiseRefusal p = some r)
    (tag : Byte) : raiseShutter tag proj s = s.answer 0x48 tag r := by
  simp only [raiseShutter, projOf_eq_some_iff.2 h, hr]

theorem raiseShutter_accepted {proj : Byte} (h : proj.toNat = p.num) (hr : s.raiseRefusal p = none) (tag : Byte) :
    raiseShutter tag proj s = (s.moveShutter p .raising none).answer 0x48 tag .accepted := by
  simp only [raiseShutter, projOf_eq_some_iff.2 h, hr]

theorem dropShutter_noSuch {proj : Byte} (h : ¬(1 ≤ proj.toNat ∧ proj.toNat ≤ 8)) (tag : Byte) (s : State) :
    dropShutter tag proj s = s.answer 0x49 tag .noSuch := by
  simp only [dropShutter, projOf_eq_none h]

theorem dropShutter_of_proj {proj : Byte} (h : proj.toNat = p.num) (tag : Byte) (s : State) :
    dropShutter tag proj s =
      if (s.bsu.shutters.get p).state = .dropped then s.answer 0x49 tag .already
      else ((s.putDown p .console).emit (.shutterDropped p .console)).answer 0x49 tag .done := by
  simp only [dropShutter, projOf_eq_some_iff.2 h]

theorem dropped_of_raiseRefusal (h : s.raiseRefusal p = none) : (s.bsu.shutters.get p).state = .dropped := by
  by_contra hne
  simp [State.raiseRefusal, hne] at h

/-! ## The fire sign (R163, R165) -/

theorem fireSign_latches (h : s.bsu.fire = none) (reason : FireReason) (x : Option Proj) :
    s.fireSign reason x = s.latchFire reason x := by
  simp only [State.fireSign, h]

theorem fireSign_repeats {r : FireRecord} {reason : FireReason} (h : s.bsu.fire = some r) (hr : r.has reason = true)
    (x : Option Proj) : s.fireSign reason x = s := by
  simp only [State.fireSign, h, hr, if_true]

theorem fireSign_joins {r : FireRecord} {reason : FireReason} (h : s.bsu.fire = some r) (hr : r.has reason = false)
    (x : Option Proj) : s.fireSign reason x = { s with
      bsu := { s.bsu with fire := some (r.add reason) }
      cnl := s.cnl.raise ⟨s.bck.time, .safety .fireReasonAdded true (r.add reason).input (r.add reason).link
        (r.add reason).alarm (some (r.add reason).first) (r.add reason).linkProj s.bsu.estop.isSome s.bsu.proven
        (some reason)⟩ } := by
  simp only [State.fireSign, h, hr, Bool.false_eq_true, if_false]
  rfl

/-! ## An edge of a shutter-up sensor (R157, R159) -/

/-- The part with the sensor's level accepted. -/
def State.sensorRead (s : State) (p : Proj) (up : Bool) : State :=
  (s.cleanChange (.shutterUp p) up).modBsu (·.modShutter p fun x => { x with up := some up })

theorem sensorRead_eq (s : State) (p : Proj) (up : Bool) :
    s.sensorRead p up = { s with
      pins := s.pins.setLevel up (.shutterUp p)
      bsu := { s.bsu with
        shutters := s.bsu.shutters.set p
          { s.bsu.shutters.get p with up := some up, upSamples := [!up, up, up] } } } := by
  simp [State.sensorRead, State.cleanChange, State.keepSamples, State.modBsu, State.modPins, Bsu.modShutter]

theorem shutterSensorEdge_eq (s : State) (p : Proj) (up : Bool) :
    shutterSensorEdge p up (s.cleanChange (.shutterUp p) up) =
      match (s.bsu.shutters.get p).state, up with
      | .raising, true => (s.sensorRead p up).completeRaise p
      | .raised, false => (s.sensorRead p up).linkParted p
      | _, _ => s.sensorRead p up := by
  have hstate : ((s.sensorRead p up).bsu.shutters.get p).state = (s.bsu.shutters.get p).state := by
    simp [sensorRead_eq]
  rw [← hstate]
  rfl

/-- A parted link brings the shutter down before the fire sign. -/
theorem linkParted_of_up (h : (s.bsu.shutters.get p).state ≠ .dropped) :
    s.linkParted p = (({ s with
      bsu := { s.bsu with
        shutters := s.bsu.shutters.set p
          { s.bsu.shutters.get p with state := .dropped, reason := .link, raiseTimer := false } }
      cnl := s.cnl.raise (s.dropNotice p .link) } : State).fireSign .portLink (some p)).emit
      (.shutterDropped p .link) := by
  rw [State.linkParted, putDown_of_up h]

/-- Settles O53: the refusals, the drop, the timer, and the sensor's edge by the shutter's state. -/
theorem shuttersAreRaisedAndDropped : Obligations.ShuttersAreRaisedAndDropped := by
  refine ⟨fun tag proj s => ⟨fun h => ⟨?_, ?_⟩, fun p h => ⟨fun r hr => ?_, fun hr => ?_, fun hd => ?_, fun hd => ?_,
    fun ht hs => ?_, fun ht => ?_⟩⟩, fun p up s => ⟨fun h => ?_, fun hs hu => ?_, fun hs hu => ?_⟩⟩
  · exact congrArg Host.Outcome.next (raiseShutter_noSuch h tag _)
  · exact congrArg Host.Outcome.next (dropShutter_noSuch h tag _)
  · exact congrArg Host.Outcome.next
      (raiseShutter_refused (s := s.taken _) h ((raiseRefusal_eq _ p).trans (by exact hr)) tag)
  · have hnone : (s.taken (.raiseShutter tag proj)).raiseRefusal p = none := (raiseRefusal_eq _ p).trans (by exact hr)
    have hdropped : (s.bsu.shutters.get p).state = .dropped := dropped_of_raiseRefusal hnone
    refine congrArg Host.Outcome.next ((raiseShutter_accepted h hnone tag).trans ?_)
    simp [State.moveShutter, State.modBsu, Bsu.modShutter, Shutter.enter, State.note, State.modCnl, State.answer,
      State.reply, State.taken, hdropped]
  · exact congrArg Host.Outcome.next ((dropShutter_of_proj h tag _).trans (if_pos hd))
  · refine congrArg Host.Outcome.next ((dropShutter_of_proj h tag _).trans ((if_neg hd).trans ?_))
    rw [putDown_of_up (by exact hd)]
    rfl
  · refine congrArg Host.Outcome.next ((if_pos ⟨ht, hs⟩).trans ?_)
    rw [putDown_of_up (by rw [hs]; decide), State.dropNotice, hs]
    rfl
  · exact congrArg Host.Outcome.next (if_neg fun hk => by simp [ht] at hk)
  · refine congrArg Host.Outcome.next ((shutterSensorEdge_eq s p up).trans ?_)
    rw [sensorRead_eq]
    obtain hd | ⟨hr, hu⟩ | ⟨hr, hu⟩ := h
    · simp only [hd]
    · simp only [hr, hu]
    · simp only [hr, hu]
  · subst hu
    refine congrArg Host.Outcome.next ((shutterSensorEdge_eq s p true).trans ?_)
    rw [sensorRead_eq]
    simp [hs, State.completeRaise, State.moveShutter, State.modBsu, Bsu.modShutter, Shutter.enter, State.note,
      State.modCnl, Bsu.setVeto, State.vetoAtRaised, State.estopLatched]
    rfl
  · subst hu
    have hup : ((s.sensorRead p false).bsu.shutters.get p).state ≠ .dropped := by simp [sensorRead_eq, hs]
    have hparted : exec (.shutterUpSensorEdge p false) s = .next ((s.sensorRead p false).linkParted p) :=
      congrArg Host.Outcome.next ((shutterSensorEdge_eq s p false).trans (by simp only [hs]))
    have hnotice : (s.sensorRead p false).dropNotice p .link =
        ⟨s.bck.time, .shutter p .dropped .raised (some .link)⟩ := by
      simp [State.dropNotice, sensorRead_eq, hs]
    rw [linkParted_of_up hup, hnotice, sensorRead_eq] at hparted
    simp only [Oct.set_set, Oct.get_set_self] at hparted
    refine ⟨fun hf => ?_, fun r hf hl => ?_, fun r hf hl => ?_⟩
    · rw [fireSign_latches (by exact hf)] at hparted
      exact ⟨_, fireLatched_latchFire _ _ _, hparted⟩
    · rw [fireSign_repeats (by exact hf) (by exact hl)] at hparted
      exact hparted
    · rw [fireSign_joins (by exact hf) (by exact hl)] at hparted
      exact hparted

end Sys2Proof.Machine
end

section
namespace Sys2Proof.Machine

variable {s : State} {p : Proj} {sc : Screen}

/-! ## The fire input and the alarm (R163, R165) -/

theorem fireInputEdge_asserted (s : State) :
    fireInputEdge true s = (s.modBsu fun b => { b with fireInput := some true }).fireSign .input none := rfl

theorem raiseAlarm_latches (h : s.bsu.fire = none) (tag : Byte) :
    raiseAlarm tag s = (s.latchFire .alarm none).answer 0x4A tag .done := by
  simp only [raiseAlarm, h, fireSign_latches h]

theorem raiseAlarm_repeats {r : FireRecord} (h : s.bsu.fire = some r) (hr : r.alarm = true) (tag : Byte) :
    raiseAlarm tag s = s.answer 0x4A tag .already := by
  simp only [raiseAlarm, h, hr, if_true]

theorem raiseAlarm_joins {r : FireRecord} (h : s.bsu.fire = some r) (hr : r.alarm = false) (tag : Byte) :
    raiseAlarm tag s = (s.fireSign .alarm none).answer 0x4A tag .done := by
  simp only [raiseAlarm, h, hr, Bool.false_eq_true, if_false]

/-! ## CLEAR FIRE (R166) -/

theorem clearFire_of_clear (h : s.bsu.fire = none) (tag : Byte) : clearFire tag s = s.answer 0x4B tag .already := by
  simp only [clearFire, h]

theorem clearFire_asserted {r : FireRecord} (h : s.bsu.fire = some r) (hi : s.bsu.fireInput = some true) (tag : Byte) :
    clearFire tag s = s.answer 0x4B tag (.notReady .inputAsserted) := by
  simp only [clearFire, h, hi, if_true]

theorem clearFire_clears {r : FireRecord} (h : s.bsu.fire = some r) (hi : s.bsu.fireInput ≠ some true) (tag : Byte) :
    clearFire tag s = (s.clearFire r).answer 0x4B tag .done := by
  simp only [clearFire, h, if_neg hi]

/-- R166: the state is clear, every FIRE rank is empty, and nothing else but notices and the fades of the lights. -/
theorem clearFire_spec (s : State) (r : FireRecord) :
    KeepsAllBut s (s.clearFire r) [.cnl, .bsu, .hlc .s1, .hlc .s2, .hlc .s3, .hlc .s4] ∧
    (s.clearFire r).bsu = { s.bsu with fire := none } ∧
    (∀ sc, ((s.clearFire r).hlc.get sc).fire = none ∧
      ∀ rank, rank ≠ .fire → ((s.clearFire r).hlc.get sc).rank rank = (s.hlc.get sc).rank rank) ∧
    Noted (s.cnl.raise ⟨s.bck.time, .safety .fireCleared false r.input r.link r.alarm none none s.bsu.estop.isSome
      s.bsu.proven none⟩) (s.clearFire r).cnl := by
  obtain ⟨hkeep, hnoted⟩ := fireReleases_keeps Screen.all
    ((s.modBsu fun b => { b with fire := none }).note
      (safetyNotice { s.bsu with fire := none } .fireCleared (some r) none))
  refine ⟨?_, hkeep .bsu (by decide), fun sc => ?_, hnoted⟩
  · exact (((keeps_modBsu _ _).mono (by simp)).trans ((keeps_note _ _).mono (by simp))).trans (hkeep.mono (by decide))
  · have hhlc : (s.clearFire r).hlc.get sc = (s.hlc.get sc).change .fire none :=
      (fireReleases_hlc (by decide) _ sc).trans (if_pos (mem_allScreen sc))
    rw [hhlc]
    exact ⟨change_rank_self _ .fire _, fun rank hr => change_rank_ne _ _ hr⟩

/-! ## The emergency stop (R167, R168) -/

theorem estopSign_latched (h : s.bsu.estop.isSome = true) : s.estopSign = s := if_pos h

theorem estopSign_latches (h : s.bsu.estop = none) :
    s.estopSign = ((s.modBsu fun b =>
      { b with estop := some s.bck.time, vetoes := Oct.const (some .estop) }).emitAll estopHandouts).noteSafety
      .estopLatched none := if_neg (show ¬s.bsu.estop.isSome = true by simp [h])

theorem clearEstop_of_clear (h : s.bsu.estop = none) (tag : Byte) : clearEstop tag s = s.answer 0x4C tag .already :=
  if_pos (show s.bsu.estop.isSome = false by rw [h]; rfl)

theorem clearEstop_of_latched (h : s.bsu.estop.isSome = true) (tag : Byte) :
    clearEstop tag s =
      if s.bsu.estopInput = some true then s.answer 0x4C tag (.notReady .inputAsserted)
      else ((s.modBsu fun b => { b with estop := none }.clearRaised Proj.all).noteSafety .estopCleared none).answer 0x4C
        tag .done := if_neg (show ¬s.bsu.estop.isSome = false by simp [h])

/-- R168: the emergency stop cleared, over any list of projectors whose vetoes are looked at. -/
theorem clearRaised_noted (ps : List Proj) (s : State) :
    ∃ vetoes : Oct (Option VetoCause),
      (s.modBsu fun b => { b with estop := none }.clearRaised ps).noteSafety .estopCleared none = { s with
        bsu := { s.bsu with estop := none, vetoes := vetoes }
        cnl := s.cnl.raise ⟨s.bck.time, .safety .estopCleared s.bsu.fire.isSome (s.bsu.fire.elim false (·.input))
          (s.bsu.fire.elim false (·.link)) (s.bsu.fire.elim false (·.alarm)) (s.bsu.fire.map (·.first))
          (s.bsu.fire.bind (·.linkProj)) false s.bsu.proven none⟩ } ∧
      ∀ p, vetoes.get p =
        if p ∈ ps ∧ (s.bsu.shutters.get p).state = .raised then none else s.bsu.vetoes.get p := by
  obtain ⟨hrec, hveto⟩ := Bsu.Safe.clearRaised_fields ps { s.bsu with estop := none }
  refine ⟨_, ?_, hveto⟩
  simp only [State.modBsu]
  rw [hrec]
  rfl

theorem clearEstop_clears (h : s.bsu.estop.isSome = true) (hi : s.bsu.estopInput ≠ some true) (tag : Byte) :
    ∃ vetoes : Oct (Option VetoCause),
      clearEstop tag s = ({ s with
        bsu := { s.bsu with estop := none, vetoes := vetoes }
        cnl := s.cnl.raise ⟨s.bck.time, .safety .estopCleared s.bsu.fire.isSome (s.bsu.fire.elim false (·.input))
          (s.bsu.fire.elim false (·.link)) (s.bsu.fire.elim false (·.alarm)) (s.bsu.fire.map (·.first))
          (s.bsu.fire.bind (·.linkProj)) false s.bsu.proven none⟩ } : State).answer 0x4C tag .done ∧
      ∀ p, vetoes.get p = if (s.bsu.shutters.get p).state = .raised then none else s.bsu.vetoes.get p := by
  obtain ⟨vetoes, hnoted, hveto⟩ := clearRaised_noted Proj.all s
  refine ⟨vetoes, ?_, fun p => (hveto p).trans (by simp only [mem_allProj, true_and])⟩
  rw [clearEstop_of_latched h, if_neg hi, hnoted]

/-- Settles O54: the fire sign from the input and the alarm, its clearing, and the emergency stop. -/
theorem latchesAreSetJoinedAndCleared : Obligations.LatchesAreSetJoinedAndCleared := by
  refine ⟨fun tag s => ⟨rfl, fun h => ⟨⟨_, rfl, ?_⟩, ⟨_, ?_, fireLatched_latchFire _ _ _⟩, ?_⟩,
      fun r h => ⟨fun hi => ?_, fun hi => ?_, fun ha => ?_, fun ha => ?_, fun hi => ?_, fun hi =>
        ⟨(s.taken (.clearFire tag)).clearFire r, ?_, clearFire_spec _ _⟩⟩⟩,
    fun tag s => ⟨rfl, fun h => ?_, fun h => ?_, fun h => ?_, fun h hi => ?_, fun h hi => ?_⟩⟩
  · rw [fireInputEdge_asserted, fireSign_latches (by exact h)]
    exact fireLatched_latchFire _ _ _
  · exact congrArg Host.Outcome.next (raiseAlarm_latches (s := s.taken _) h tag)
  · exact congrArg Host.Outcome.next (clearFire_of_clear (s := s.taken _) h tag)
  · exact congrArg Host.Outcome.next ((fireInputEdge_asserted _).trans
      (fireSign_repeats (r := r) (by exact h) (by exact hi) none))
  · exact congrArg Host.Outcome.next ((fireInputEdge_asserted _).trans
      (fireSign_joins (r := r) (by exact h) (by exact hi) none))
  · exact congrArg Host.Outcome.next (raiseAlarm_repeats (s := s.taken _) h ha tag)
  · refine congrArg Host.Outcome.next ((raiseAlarm_joins (s := s.taken _) h ha tag).trans ?_)
    rw [fireSign_joins (r := r) (by exact h) (by exact ha)]
    rfl
  · exact congrArg Host.Outcome.next (clearFire_asserted (s := s.taken _) h hi tag)
  · exact congrArg Host.Outcome.next (clearFire_clears (s := s.taken _) h hi tag)
  · exact congrArg Host.Outcome.next (estopSign_latched (by exact h))
  · exact congrArg Host.Outcome.next (estopSign_latches (by exact h))
  · exact congrArg Host.Outcome.next (clearEstop_of_clear (s := s.taken _) h tag)
  · exact congrArg Host.Outcome.next ((clearEstop_of_latched (s := s.taken _) h tag).trans (if_pos hi))
  · obtain ⟨vetoes, hclear, hveto⟩ := clearEstop_clears (s := s.taken (.clearEstop tag)) h hi tag
    exact ⟨vetoes, congrArg Host.Outcome.next hclear, hveto⟩

end Sys2Proof.Machine
end

section
namespace Sys2Proof.Machine

variable {s : State} {p : Proj} {sc : Screen}

/-! ## Pins and samples changed behind an input

What a block does at an edge of an input does not read the pins or that input's samples, so that it may be done before
or after they change. -/

/-- The pins at `x` and the history `h` of input `i`. -/
def State.resampled (s : State) (x : Pins) (h : List Bool) (i : SwitchInput) : State :=
  (s.modPins fun _ => x).keepSamples h i

theorem cleanChange_eq_resampled (s : State) (i : SwitchInput) (v : Bool) :
    s.cleanChange i v = s.resampled (s.pins.setLevel v i) [!v, v, v] i := rfl

theorem resampled_pins (s : State) (x : Pins) (h : List Bool) (i : SwitchInput) : (s.resampled x h i).pins = x := by
  cases i <;> rfl

theorem resampled_resampled (s : State) (x y : Pins) (h k : List Bool) (i : SwitchInput) :
    (s.resampled x h i).resampled y k i = s.resampled y k i := by
  cases i <;> simp [State.resampled, State.keepSamples, State.modPins, State.modTrm, State.modBsu, Bsu.modShutter]

theorem keepSamples_with_pins (s : State) (h : List Bool) (i : SwitchInput) (y : Pins) :
    { s.keepSamples h i with pins := y } = s.resampled y h i := by cases i <;> rfl

theorem resampled_emit (s : State) (e : Instr) (x : Pins) (h : List Bool) (i : SwitchInput) :
    (s.resampled x h i).emit e = (s.emit e).resampled x h i := by cases i <;> rfl

theorem resampled_emitAll (s : State) (es : List Instr) (x : Pins) (h : List Bool) (i : SwitchInput) :
    (s.resampled x h i).emitAll es = (s.emitAll es).resampled x h i := by cases i <;> rfl

theorem resampled_note (s : State) (b : NoticeBody) (x : Pins) (h : List Bool) (i : SwitchInput) :
    (s.resampled x h i).note b = (s.note b).resampled x h i := by cases i <;> rfl

theorem resampled_noteSafety (s : State) (event : SafetyEvent) (added : Option FireReason) (x : Pins) (h : List Bool)
    (i : SwitchInput) :
    (s.resampled x h i).noteSafety event added = (s.noteSafety event added).resampled x h i := by cases i <;> rfl

theorem resampled_changeRank (s : State) (sc : Screen) (r : Rank) (q : Option LightRequest) (x : Pins) (h : List Bool)
    (i : SwitchInput) :
    (s.resampled x h i).changeRank sc r q = (s.changeRank sc r q).resampled x h i := by
  have hhlc : (s.resampled x h i).hlc = s.hlc := by cases i <;> rfl
  have hmod : (s.resampled x h i).modHlc sc (·.change r q) = (s.modHlc sc (·.change r q)).resampled x h i := by
    cases i <;> rfl
  unfold State.changeRank
  dsimp only
  rw [hmod, hhlc, show ((s.modHlc sc (·.change r q)).resampled x h i).hlc = (s.modHlc sc (·.change r q)).hlc by
    cases i <;> rfl]
  split
  · rfl
  · exact resampled_note _ _ _ _ _

theorem resampled_fireWrites (scs : List Screen) (s : State) (x : Pins) (h : List Bool) (i : SwitchInput) :
    (s.resampled x h i).fireWrites scs = (s.fireWrites scs).resampled x h i := by
  induction scs generalizing s with
  | nil => rfl
  | cons sc scs ih =>
    rw [State.fireWrites, State.fireWrites, ← ih]
    exact congrArg (·.fireWrites scs) (resampled_changeRank _ _ _ _ _ _ _)

theorem Oct.set_comm {α : Type} (o : Oct α) {i j : Proj} (h : i ≠ j) (x y : α) :
    (o.set i x).set j y = (o.set j y).set i x := by
  cases i <;> cases j <;> first | rfl | exact absurd rfl h

/-- A shutter's change of state does not touch its sensor's samples. -/
theorem resampled_moveShutter (s : State) (p : Proj) (new : ShutterState) (reason : Option DropReason) (x : Pins)
    (h : List Bool) (i : SwitchInput) :
    (s.resampled x h i).moveShutter p new reason = (s.moveShutter p new reason).resampled x h i := by
  cases i with
  | shutterUp q =>
    by_cases hq : q = p
    · subst hq
      simp [State.resampled, State.keepSamples, State.moveShutter, State.modBsu, State.modPins, Bsu.modShutter,
        Shutter.enter, State.note, State.modCnl]
    · simp [State.resampled, State.keepSamples, State.moveShutter, State.modBsu, State.modPins, Bsu.modShutter,
        State.note, State.modCnl, hq, Ne.symm hq, Oct.set_comm _ hq]
  | _ => rfl

theorem resampled_shutterState (s : State) (p : Proj) (x : Pins) (h : List Bool) (i : SwitchInput) :
    ((s.resampled x h i).bsu.shutters.get p).state = (s.bsu.shutters.get p).state := by
  cases i with
  | shutterUp q =>
    simp only [State.resampled, State.keepSamples, State.modBsu_bsu, Bsu.modShutter, State.modPins_bsu, Oct.get_set]
    split
    · next hq => rw [hq]
    · rfl
  | _ => rfl

theorem resampled_putDown (s : State) (p : Proj) (reason : DropReason) (x : Pins) (h : List Bool) (i : SwitchInput) :
    (s.resampled x h i).putDown p reason = (s.putDown p reason).resampled x h i := by
  unfold State.putDown
  rw [resampled_shutterState]
  split
  · rfl
  · exact resampled_moveShutter _ _ _ _ _ _ _

theorem resampled_dropAll (ps : List Proj) (s : State) (x : Pins) (h : List Bool) (i : SwitchInput) :
    (s.resampled x h i).dropAll ps = (s.dropAll ps).resampled x h i := by
  induction ps generalizing s with
  | nil => rfl
  | cons p ps ih => rw [State.dropAll, State.dropAll, ← ih, resampled_putDown]

theorem resampled_modFire (s : State) (f : Option FireRecord) (x : Pins) (h : List Bool) (i : SwitchInput) :
    ((s.resampled x h i).modBsu fun b => { b with fire := f }) =
      (s.modBsu fun b => { b with fire := f }).resampled x h i := by cases i <;> rfl

theorem resampled_modVetoes (s : State) (f : Oct (Option VetoCause) → Oct (Option VetoCause)) (x : Pins)
    (h : List Bool) (i : SwitchInput) :
    ((s.resampled x h i).modBsu fun b => { b with vetoes := f b.vetoes }) =
      (s.modBsu fun b => { b with vetoes := f b.vetoes }).resampled x h i := by cases i <;> rfl

theorem resampled_latchFire (s : State) (reason : FireReason) (q : Option Proj) (x : Pins) (h : List Bool)
    (i : SwitchInput) :
    (s.resampled x h i).latchFire reason q = (s.latchFire reason q).resampled x h i := by
  have htime : (s.resampled x h i).bck = s.bck := by cases i <;> rfl
  unfold State.latchFire
  dsimp only
  generalize Proj.all = ps
  generalize Screen.all = scs
  rw [htime, resampled_modFire, resampled_dropAll, resampled_modVetoes _ (fun _ => Oct.const (some .fire)),
    resampled_emitAll, resampled_noteSafety, resampled_fireWrites]

theorem resampled_fireSign (s : State) (reason : FireReason) (q : Option Proj) (x : Pins) (h : List Bool)
    (i : SwitchInput) :
    (s.resampled x h i).fireSign reason q = (s.fireSign reason q).resampled x h i := by
  have hfire : (s.resampled x h i).bsu.fire = s.bsu.fire := by cases i <;> rfl
  cases hf : s.bsu.fire with
  | none => rw [fireSign_latches hf, fireSign_latches (hfire.trans hf), resampled_latchFire]
  | some r =>
    cases hr : r.has reason with
    | true => rw [fireSign_repeats hf hr, fireSign_repeats (hfire.trans hf) hr]
    | false =>
      rw [fireSign_joins hf hr, fireSign_joins (hfire.trans hf) hr]
      cases i <;> rfl

theorem resampled_fireInputEdge (s : State) (v : Bool) (x : Pins) (h : List Bool) :
    fireInputEdge v (s.resampled x h .fire) = (fireInputEdge v s).resampled x h .fire := by
  cases v with
  | false => rfl
  | true => exact resampled_fireSign (s.modBsu fun b => { b with fireInput := some true }) .input none x h .fire

theorem resampled_estopSign (s : State) (x : Pins) (h : List Bool) (i : SwitchInput) :
    (s.resampled x h i).estopSign = s.estopSign.resampled x h i := by
  have hestop : (s.resampled x h i).bsu.estop = s.bsu.estop := by cases i <;> rfl
  cases he : s.bsu.estop with
  | none =>
    rw [estopSign_latches he, estopSign_latches (hestop.trans he)]
    cases i <;> rfl
  | some t =>
    have hlatched : s.bsu.estop.isSome = true := by rw [he]; rfl
    rw [estopSign_latched hlatched, estopSign_latched (by rw [hestop]; exact hlatched)]

theorem resampled_estopInputEdge (s : State) (v : Bool) (x : Pins) (h : List Bool) :
    estopInputEdge v (s.resampled x h .estop) = (estopInputEdge v s).resampled x h .estop := by
  cases v with
  | false => rfl
  | true => exact resampled_estopSign (s.modBsu fun b => { b with estopInput := some true }) x h .estop

theorem resampled_markEdge (s : State) (p : Proj) (x : Pins) (h : List Bool) :
    markEdge p (s.resampled x h (.cueSensor p)) = (markEdge p s).resampled x h (.cueSensor p) := by
  cases hw : (s.trm.get p).window with
  | none =>
    simp [markEdge, State.resampled, State.keepSamples, State.modPins, State.modTrm, hw, Trm.strayEdge]
    split <;> rfl
  | some w =>
    by_cases hs : w.sensedAt (s.trm.get p).count = true
    · simp [markEdge, State.resampled, State.keepSamples, State.modPins, State.modTrm, hw, hs, State.fireWindow,
        State.emit, State.noteCue, State.note, State.modCnl]
    · simp [markEdge, State.resampled, State.keepSamples, State.modPins, State.modTrm, hw, hs, Trm.strayEdge]
      split <;> rfl

theorem resampled_stopMotor (s : State) (p : Proj) (x : Pins) (h : List Bool) :
    (s.resampled x h (.loopSwitch p)).stopMotor p = (s.stopMotor p).resampled x h (.loopSwitch p) := by
  by_cases hs : (s.trm.get p).state = .stopped
  · simp [State.resampled, State.keepSamples, State.modPins, State.modTrm, State.stopMotor, Trm.stop, hs]
  · simp [State.resampled, State.keepSamples, State.modPins, State.modTrm, State.stopMotor, Trm.stop, hs]

/-- R84, R85: an opening edge, by the motor and the count. -/
theorem loopOpens_eq (s : State) (p : Proj) :
    loopOpens p s =
      let t := s.trm.get p
      let u := s.modTrm p fun t => { t with loopClosed := some false }
      if t.motor then
        if t.pastEnd then (u.stopMotor p).emit (.runoutReached p t.count) else u.emit (.filmBreak p t.count)
      else u := by
  unfold loopOpens
  simp only [State.modTrm_trm, Oct.get_set_self]
  rfl

theorem resampled_loopOpens (s : State) (p : Proj) (x : Pins) (h : List Bool) :
    loopOpens p (s.resampled x h (.loopSwitch p)) = (loopOpens p s).resampled x h (.loopSwitch p) := by
  have htrm : (s.resampled x h (.loopSwitch p)).trm.get p = { s.trm.get p with loopSamples := h } := by
    simp [State.resampled, State.keepSamples]
  have hread : (s.resampled x h (.loopSwitch p)).modTrm p (fun t => { t with loopClosed := some false }) =
      (s.modTrm p fun t => { t with loopClosed := some false }).resampled x h (.loopSwitch p) := by
    simp [State.resampled, State.keepSamples, State.modTrm, State.modPins]
  have hend : ({ s.trm.get p with loopSamples := h } : Trm).pastEnd = (s.trm.get p).pastEnd := rfl
  rw [loopOpens_eq, loopOpens_eq]
  simp only [htrm, hread, hend]
  split
  · split
    · rw [resampled_stopMotor, resampled_emit]
    · rw [resampled_emit]
  · rfl

theorem resampled_shutterSensorEdge (s : State) (p : Proj) (v : Bool) (x : Pins) (h : List Bool) :
    shutterSensorEdge p v (s.resampled x h (.shutterUp p)) =
      (shutterSensorEdge p v s).resampled x h (.shutterUp p) := by
  have hread : (s.resampled x h (.shutterUp p)).modBsu (·.modShutter p fun y => { y with up := some v }) =
      (s.modBsu (·.modShutter p fun y => { y with up := some v })).resampled x h (.shutterUp p) := by
    simp [State.resampled, State.keepSamples, State.modBsu, State.modPins, Bsu.modShutter]
  unfold shutterSensorEdge
  dsimp only
  rw [hread]
  generalize (s.modBsu (·.modShutter p fun y => { y with up := some v })) = u
  rw [resampled_shutterState]
  cases (u.bsu.shutters.get p).state <;> cases v
  case raising.true =>
    have hveto : (u.resampled x h (.shutterUp p)).vetoAtRaised = u.vetoAtRaised := rfl
    dsimp only
    unfold State.completeRaise
    rw [resampled_moveShutter, hveto]
    exact resampled_modVetoes _ (fun vs => vs.set p u.vetoAtRaised) _ _ _
  case raised.false =>
    dsimp only
    unfold State.linkParted
    rw [resampled_putDown, resampled_fireSign, resampled_emit]
  all_goals rfl

/-- An edge of an input does not read the pins or the input's own samples. -/
theorem resampled_inputEdge (s : State) (v : Bool) (x : Pins) (h : List Bool) (i : SwitchInput) :
    (s.resampled x h i).inputEdge v i = (s.inputEdge v i).resampled x h i := by
  cases i with
  | cueSensor p =>
    cases v with
    | true => exact resampled_markEdge s p x h
    | false =>
      simp [State.inputEdge, cueClears, State.resampled, State.keepSamples, State.modTrm, State.modPins]
  | loopSwitch p =>
    cases v with
    | true =>
      simp [State.inputEdge, loopCloses, State.resampled, State.keepSamples, State.modTrm, State.modPins]
    | false => exact resampled_loopOpens s p x h
  | shutterUp p => exact resampled_shutterSensorEdge s p v x h
  | fire => exact resampled_fireInputEdge s v x h
  | estop => exact resampled_estopInputEdge s v x h
  | exhaust =>
    by_cases hp : s.bsu.proven = true
    · simp [State.inputEdge, Bsu.exhaustEdge, State.resampled, State.keepSamples, State.modBsu, State.modPins, hp]
    · simp [State.inputEdge, Bsu.exhaustEdge, State.resampled, State.keepSamples, State.modBsu, State.modPins, hp]

theorem resampled_self (s : State) (i : SwitchInput) : s.resampled s.pins (s.samples i) i = s := by
  cases i with
  | cueSensor p => exact congrArg (fun o => { s with trm := o }) (Oct.set_get s.trm p)
  | loopSwitch p => exact congrArg (fun o => { s with trm := o }) (Oct.set_get s.trm p)
  | shutterUp p =>
    exact congrArg (fun o => { s with bsu := { s.bsu with shutters := o } }) (Oct.set_get s.bsu.shutters p)
  | _ => rfl

theorem inputEdge_pins (s : State) (v : Bool) (i : SwitchInput) : (s.inputEdge v i).pins = s.pins := by
  have hedge := resampled_inputEdge s v s.pins (s.samples i) i
  rw [resampled_self] at hedge
  rw [hedge, resampled_pins]

/-! ## Settling and the exhaust (R76, R154, R169, R170) -/

theorem majority_eq {a b c level : Bool} (h : (a = b ∧ level = a) ∨ (a ≠ b ∧ level = c)) : majority a b c = level := by
  obtain ⟨rfl, rfl⟩ | ⟨hne, rfl⟩ := h
  · cases level <;> cases c <;> rfl
  · cases a <;> cases b <;> cases level <;> first | rfl | exact absurd rfl hne

theorem inputSettling_unsettled {i : SwitchInput} (h : s.inputLevel i = none) (a b c : Bool) :
    inputSettling i a b c s = (s.resampled (s.pins.setLevel c i) [a, b, c] i).settle (majority a b c) i :=
  if_pos (by rw [h]; rfl)

theorem inputSettling_settled {i : SwitchInput} (h : (s.inputLevel i).isSome = true) (a b c : Bool) :
    inputSettling i a b c s = s := if_neg (by simpa using Option.isSome_iff_ne_none.1 h)

theorem provingExpiry_running (h : s.bsu.provingTimer = true) (hp : s.bsu.proven = false) :
    provingExpiry s = (s.modBsu fun b => { b with proven := true, provingTimer := false }).noteSafety .exhaustProven
      none :=
  if_pos ⟨h, hp⟩

theorem lossExpiry_running (h : s.bsu.lossTimer = true) (hp : s.bsu.proven = true) :
    lossExpiry s = ((s.modBsu fun b => { b with proven := false, lossTimer := false }).emitAll
      exhaustHandouts).noteSafety
      .exhaustLost none := if_pos ⟨h, hp⟩

theorem exhaustEdge_unproven {b : Bsu} (h : b.proven = false) (v : Bool) :
    b.exhaustEdge v = { b with exhaustInput := some v, provingTimer := v } := if_neg (by simp [h])

theorem exhaustEdge_proven {b : Bsu} (h : b.proven = true) (v : Bool) :
    b.exhaustEdge v = { b with exhaustInput := some v, lossTimer := !v } := if_pos h

/-- Settles O55: the exhaust's two timers, and each input settling by the majority of its three samples. -/
theorem exhaustAndInputs : Obligations.ExhaustAndInputs := by
  refine ⟨fun b s => ⟨fun h => ⟨?_, fun ht => ?_⟩, fun h => ⟨?_, fun ht => ?_⟩, fun h => ?_, fun h => ?_⟩,
    fun p a b c level s hmaj => ⟨⟨fun h => ?_, fun h => ?_, fun h => ?_, fun h => ⟨_, rfl, ?_⟩, fun h => ⟨_, rfl, ?_⟩,
      fun h hp => ?_⟩, fun h => ?_, fun h => ?_, fun h => ?_, fun h => ?_, fun h => ?_, fun h => ?_⟩⟩
  · exact congrArg (fun b' => Host.Outcome.next ((s.cleanChange .exhaust b).modBsu fun _ => b'))
      (exhaustEdge_unproven (by exact h) b)
  · exact congrArg Host.Outcome.next (provingExpiry_running ht h)
  · exact congrArg (fun b' => Host.Outcome.next ((s.cleanChange .exhaust b).modBsu fun _ => b'))
      (exhaustEdge_proven (by exact h) b)
  · exact congrArg Host.Outcome.next (lossExpiry_running ht h)
  · exact congrArg Host.Outcome.next (if_neg fun hk => by simp [h] at hk)
  · exact congrArg Host.Outcome.next (if_neg fun hk => by simp [h] at hk)
  · refine congrArg Host.Outcome.next ((inputSettling_unsettled (i := .cueSensor p) h a b c).trans ?_)
    rw [majority_eq hmaj]
    simp [State.resampled, State.keepSamples, State.settle, State.modTrm, State.modPins]
  · refine congrArg Host.Outcome.next ((inputSettling_unsettled (i := .loopSwitch p) h a b c).trans ?_)
    rw [majority_eq hmaj]
    simp [State.resampled, State.keepSamples, State.settle, State.modTrm, State.modPins]
  · refine congrArg Host.Outcome.next ((inputSettling_unsettled (i := .shutterUp p) h a b c).trans ?_)
    rw [majority_eq hmaj]
    simp [State.resampled, State.keepSamples, State.settle, State.modBsu, State.modPins, Bsu.modShutter]
  · refine congrArg Host.Outcome.next ((inputSettling_unsettled (i := .fire) h a b c).trans ?_)
    rw [majority_eq hmaj, cleanChange_eq_resampled, resampled_fireInputEdge]
    exact (resampled_fireInputEdge s level _ _).trans (resampled_resampled _ _ _ _ _ .fire).symm
  · refine congrArg Host.Outcome.next ((inputSettling_unsettled (i := .estop) h a b c).trans ?_)
    rw [majority_eq hmaj, cleanChange_eq_resampled, resampled_estopInputEdge]
    exact (resampled_estopInputEdge s level _ _).trans (resampled_resampled _ _ _ _ _ .estop).symm
  · refine congrArg Host.Outcome.next ((inputSettling_unsettled (i := .exhaust) h a b c).trans ?_)
    rw [majority_eq hmaj]
    simp [State.resampled, State.keepSamples, State.settle, State.modBsu, State.modPins, Bsu.settleExhaust, hp]
  · exact congrArg Host.Outcome.next (inputSettling_settled (i := .cueSensor p) h a b c)
  · exact congrArg Host.Outcome.next (inputSettling_settled (i := .loopSwitch p) h a b c)
  · exact congrArg Host.Outcome.next (inputSettling_settled (i := .shutterUp p) h a b c)
  · exact congrArg Host.Outcome.next (inputSettling_settled (i := .fire) h a b c)
  · exact congrArg Host.Outcome.next (inputSettling_settled (i := .estop) h a b c)
  · exact congrArg Host.Outcome.next (inputSettling_settled (i := .exhaust) h a b c)

end Sys2Proof.Machine
end

section
namespace Sys2Proof.Machine

variable {s t : State} {p : Proj}

/-! ## The notices of an edge -/

theorem noted_raise (c : Cnl) (n : Notice) : Noted c (c.raise n) := ⟨[n], rfl⟩

theorem putDown_noted (s : State) (p : Proj) (reason : DropReason) : Noted s.cnl (s.putDown p reason).cnl := by
  by_cases h : (s.bsu.shutters.get p).state = .dropped
  · rw [putDown_of_dropped h]
    exact Noted.refl _
  · rw [putDown_cnl_of_up h]
    exact noted_raise _ _

theorem fireSign_noted (s : State) (reason : FireReason) (x : Option Proj) :
    Noted s.cnl (s.fireSign reason x).cnl := by
  cases hf : s.bsu.fire with
  | none =>
    rw [fireSign_latches hf]
    obtain ⟨lights, hcnl⟩ := (fireLatched_latchFire s reason x).told
    exact ⟨_, hcnl⟩
  | some r =>
    cases hr : r.has reason with
    | true => rw [fireSign_repeats hf hr]; exact Noted.refl _
    | false => rw [fireSign_joins hf hr]; exact noted_raise _ _

theorem fireInputEdge_noted (s : State) (v : Bool) : Noted s.cnl (fireInputEdge v s).cnl := by
  cases v with
  | false => exact Noted.refl _
  | true => exact fireSign_noted (s.modBsu fun b => { b with fireInput := some true }) .input none

theorem estopInputEdge_noted (s : State) (v : Bool) : Noted s.cnl (estopInputEdge v s).cnl := by
  cases v with
  | false => exact Noted.refl _
  | true =>
    show Noted s.cnl (State.estopSign _).cnl
    unfold State.estopSign
    split
    · exact Noted.refl _
    · exact noted_raise _ _

theorem markEdge_noted (s : State) (p : Proj) : Noted s.cnl (markEdge p s).cnl := by
  unfold markEdge
  dsimp only
  split
  · split
    · exact noted_raise _ _
    · exact Noted.refl _
  · exact Noted.refl _

theorem loopOpens_noted (s : State) (p : Proj) : Noted s.cnl (loopOpens p s).cnl := by
  rw [loopOpens_eq]
  dsimp only
  split
  · split <;> exact Noted.refl _
  · exact Noted.refl _

theorem shutterSensorEdge_noted (s : State) (p : Proj) (v : Bool) : Noted s.cnl (shutterSensorEdge p v s).cnl := by
  unfold shutterSensorEdge
  dsimp only
  split
  · exact noted_raise _ _
  · exact (putDown_noted (s.modBsu _) p .link).trans (fireSign_noted _ _ _)
  · exact Noted.refl _

theorem inputEdge_noted (s : State) (v : Bool) (i : SwitchInput) : Noted s.cnl (s.inputEdge v i).cnl := by
  cases i with
  | cueSensor p =>
    cases v with
    | true => exact markEdge_noted _ _
    | false => exact Noted.refl _
  | loopSwitch p =>
    cases v with
    | true => exact Noted.refl _
    | false => exact loopOpens_noted _ _
  | shutterUp p => exact shutterSensorEdge_noted _ _ _
  | fire => exact fireInputEdge_noted _ _
  | estop => exact estopInputEdge_noted _ _
  | exhaust => exact Noted.refl _

theorem settle_noted (s : State) (v : Bool) (i : SwitchInput) : Noted s.cnl (s.settle v i).cnl := by
  cases i with
  | fire => exact fireInputEdge_noted _ _
  | estop => exact estopInputEdge_noted _ _
  | _ => exact Noted.refl _

theorem settle_pins (s : State) (v : Bool) (i : SwitchInput) : (s.settle v i).pins = s.pins := by
  cases i with
  | fire => exact inputEdge_pins s v .fire
  | estop => exact inputEdge_pins s v .estop
  | _ => rfl

/-! ## One sample of one input (R75, R76) -/

/-- A sample keeps the pins and the line, and leaves every other input as it was. -/
theorem sampleInput_others (s : State) (i : SwitchInput) :
    (s.sampleInput i).pins = s.pins ∧ (s.sampleInput i).cnl.tx = s.cnl.tx ∧
    ∀ j, j ≠ i → (s.sampleInput i).samples j = s.samples j ∧ (s.sampleInput i).inputLevel j = s.inputLevel j := by
  have hkeep (h : List Bool) (j : SwitchInput) (hj : j ≠ i) :
      (s.keepSamples h i).samples j = s.samples j ∧ (s.keepSamples h i).inputLevel j = s.inputLevel j :=
    ⟨State.keepSamples_samples_ne _ _ hj, State.keepSamples_inputLevel _ _ _ _⟩
  have hof {t : State} {h : List Bool} {v : Bool} (hp : t.pins = (s.keepSamples h i).pins)
      (hn : Noted (s.keepSamples h i).cnl t.cnl) (ha : Accepts i v (s.keepSamples h i) t) :
      t.pins = s.pins ∧ t.cnl.tx = s.cnl.tx ∧
      ∀ j, j ≠ i → t.samples j = s.samples j ∧ t.inputLevel j = s.inputLevel j := by
    refine ⟨hp.trans (by simp), ?_, fun j hj => ?_⟩
    · have hline := congrArg Cnl.tx (Noted.line hn)
      exact hline.trans (by simp)
    · obtain ⟨hsamples, hlevel⟩ := ha.sound.inputs j (by simpa using hj)
      obtain ⟨hsamples', hlevel'⟩ := hkeep h j hj
      exact ⟨hsamples.trans hsamples', hlevel.trans hlevel'⟩
  obtain ⟨-, he⟩ | ⟨v, -, -, he⟩ | ⟨v, -, -, he⟩ | ⟨v, old, -, -, -, he⟩ := sampleInput_spec s i <;> rw [he]
  · exact ⟨by simp, by simp, hkeep _⟩
  · exact hof (settle_pins _ _ _) (settle_noted _ _ _) (Sound.settle _ _ _)
  · exact ⟨by simp, by simp, hkeep _⟩
  · exact hof (inputEdge_pins _ _ _) (inputEdge_noted _ _ _) (Sound.inputEdge _ _ _)

theorem sampleInput_steady {i : SwitchInput} (h : s.Steady i) : s.sampleInput i = s := by
  obtain ⟨hlevel, hsamples⟩ := h
  have hself := resampled_self s i
  rw [hsamples] at hself
  have hshift : shiftIn (s.samples i) (s.pins.level i) = List.replicate 3 (s.pins.level i) := by
    rw [hsamples]
    rfl
  have haccept : accepted (List.replicate 3 (s.pins.level i)) = some (s.pins.level i) := by
    cases s.pins.level i <;> rfl
  simp only [State.sampleInput, hshift, hlevel, haccept, if_true]
  exact hself

/-- Where every other input holds still, the samples of a tick are the one sample. -/
theorem sampleInputs_of_one {is : List SwitchInput} {i : SwitchInput} (hnodup : is.Nodup) (hmem : i ∈ is)
    (h : ∀ j, j ≠ i → s.Steady j) : s.sampleInputs is = s.sampleInput i := by
  have hafter (js : List SwitchInput) (hjs : i ∉ js) : (s.sampleInput i).sampleInputs js = s.sampleInput i := by
    induction js with
    | nil => rfl
    | cons j js ih =>
      obtain ⟨hj, hjs⟩ := not_or.1 (mt List.mem_cons.2 hjs)
      obtain ⟨hpins, -, hother⟩ := sampleInput_others s i
      obtain ⟨hsamples, hlevel⟩ := hother j (Ne.symm hj)
      obtain ⟨hl, hs⟩ := h j (Ne.symm hj)
      have hsteady : (s.sampleInput i).Steady j := by
        unfold State.Steady
        rw [hsamples, hlevel, hpins]
        exact ⟨hl, hs⟩
      rw [State.sampleInputs, sampleInput_steady hsteady, ih hjs]
  induction is with
  | nil => cases hmem
  | cons j js ih =>
    obtain ⟨hj, hjs⟩ := List.nodup_cons.1 hnodup
    rw [State.sampleInputs]
    by_cases hji : j = i
    · subst hji
      exact hafter js hj
    · rw [sampleInput_steady (h j hji)]
      exact ih hjs ((List.mem_cons.1 hmem).resolve_left (Ne.symm hji))

theorem sampleInputs_steady (is : List SwitchInput) (h : ∀ i, s.Steady i) : s.sampleInputs is = s := by
  induction is with
  | nil => rfl
  | cons i is ih => rw [State.sampleInputs, sampleInput_steady (h i), ih]

/-! ## The tick of an idle part -/

theorem step_idle (hp : s.pending = []) (he : s.events = []) : step s = .next s.tick := by
  unfold step
  simp only [hp, he]

theorem mem_allInputs (i : SwitchInput) : i ∈ allInputs := by
  cases i <;> simp [allInputs, mem_allProj]

theorem byteSent_idle {c : Cnl} (h : c.tx = none) : c.byteSent = c := by
  unfold Cnl.byteSent
  simp only [h]

theorem frameBytes_length (kind tag : Byte) (body : List Byte) :
    (frameBytes kind tag body).length - 1 = 4 + body.length := by
  simp [frameBytes]
  omega

theorem byteSent_reply {c : Cnl} {n : Nat} {r : Reply} {rest : List Reply} (ht : c.tx = some ⟨true, n⟩)
    (hr : c.replies = r :: rest) :
    c.byteSent = { c with tx := some ⟨true, min (4 + r.body.length) (n + 1)⟩ } := by
  have hlen : (c.frame ⟨true, n⟩).length - 1 = 4 + r.body.length := by
    simp only [Cnl.frame, hr]
    exact frameBytes_length _ _ _
  unfold Cnl.byteSent
  simp only [ht, hlen]

theorem byteSent_notice {c : Cnl} {n : Nat} {x : Notice} {rest : List Notice} (ht : c.tx = some ⟨false, n⟩)
    (hx : c.notices = x :: rest) :
    c.byteSent = { c with tx := some ⟨false, min (4 + x.bodyBytes.length) (n + 1)⟩ } := by
  have hlen : (c.frame ⟨false, n⟩).length - 1 = 4 + x.bodyBytes.length := by
    simp only [Cnl.frame, hx]
    exact frameBytes_length _ _ _
  unfold Cnl.byteSent
  simp only [ht, hlen]

theorem step_of_one {i : SwitchInput} (hp : s.pending = []) (he : s.events = []) (ht : s.cnl.tx = none)
    (h : ∀ j, j ≠ i → s.Steady j) : step s = .next (s.sampleInput i) := by
  obtain ⟨-, htx, -⟩ := sampleInput_others s i
  rw [step_idle hp he, State.tick, sampleInputs_of_one (by decide) (mem_allInputs i) h, State.modCnl,
    byteSent_idle (htx.trans ht)]

theorem step_of_steady (hp : s.pending = []) (he : s.events = []) (h : ∀ i, s.Steady i) :
    step s = .next (s.modCnl Cnl.byteSent) := by
  rw [step_idle hp he, State.tick, sampleInputs_steady _ h]

theorem edge_exec (i : SwitchInput) (v : Bool) (s : State) :
    exec (i.edge v) s = .next ((s.cleanChange i v).inputEdge v i) := by
  cases i <;> cases v <;> rfl

/-- Settles O56: the tick is the sample of the one input that moves, and that sample by the filter. -/
theorem idleTickSamplesTheInputs : Obligations.IdleTickSamplesTheInputs := by
  refine ⟨fun i s hp he ht h => ⟨fun hl => ⟨fun hs => ?_, fun a hs => ?_, fun a b hs => ?_⟩,
      fun a b c old hl hs => ⟨fun hm => ?_, fun hm => ⟨_, edge_exec i (!old) s, ?_⟩⟩⟩,
    fun s hp he h => ⟨fun ht => ?_, fun n r rest ht hr => ?_, fun n x rest ht hr => ?_⟩⟩
  · rw [step_of_one hp he ht h, State.sampleInput, hl, hs]
    rfl
  · rw [step_of_one hp he ht h, State.sampleInput, hl, hs]
    rfl
  · refine (step_of_one hp he ht h).trans (congrArg Host.Outcome.next ?_)
    rw [inputSettling_unsettled hl, Pins.setLevel_level, State.sampleInput, hl, hs]
    rfl
  · have hm' : accepted [b, c, s.pins.level i] = some old := by rw [accepted_three]; exact congrArg some hm
    rw [step_of_one hp he ht h, State.sampleInput, hl, hs, shiftIn_three]
    simp only [hm', if_true]
  · have hm' : accepted [b, c, s.pins.level i] = some (!old) := by
      rw [accepted_three]
      exact congrArg some (Bool.eq_not_of_ne hm)
    rw [step_of_one hp he ht h, State.sampleInput, hl, hs, shiftIn_three, keepSamples_with_pins,
      cleanChange_eq_resampled, resampled_inputEdge, resampled_resampled, ← resampled_inputEdge]
    simp only [hm']
    exact congrArg Host.Outcome.next (if_neg (by cases old <;> decide))
  · rw [step_of_steady hp he h, State.modCnl, byteSent_idle ht]
  · rw [step_of_steady hp he h]
    exact congrArg (fun c => Host.Outcome.next (s.modCnl fun _ => c)) (byteSent_reply ht hr)
  · rw [step_of_steady hp he h]
    exact congrArg (fun c => Host.Outcome.next (s.modCnl fun _ => c)) (byteSent_notice ht hr)

end Sys2Proof.Machine
end

section
namespace Sys2Proof.Machine

variable {s : State} {p : Proj}

/-! ## Starting and stopping (R78, R79, R162) -/

theorem stop_of_stopped {t : Trm} (h : t.state = .stopped) : t.stop = t := if_pos h

theorem stop_of_running {t : Trm} (h : t.state ≠ .stopped) :
    t.stop = { t with
      motor := false, state := .stopped, runUpTimer := false, stallTimer := false, goodRun := 0, window := none } :=
  if_neg h

theorem stopMotor_of_stopped (h : (s.trm.get p).state = .stopped) : s.stopMotor p = s := by
  simp [State.stopMotor, State.modTrm, stop_of_stopped h]

theorem stopMotor_of_running (h : (s.trm.get p).state ≠ .stopped) :
    s.stopMotor p = { s with trm := s.trm.set p { s.trm.get p with
      motor := false, state := .stopped, runUpTimer := false, stallTimer := false, goodRun := 0, window := none } } := by
  simp [State.stopMotor, State.modTrm, stop_of_running h]

theorem motorOnCommand_held (h : s.bsu.fire.isSome = true ∨ s.bsu.estop.isSome = true) :
    motorOnCommand p s = s.refuseMotorOn p := if_pos (Bool.or_eq_true _ _ ▸ h)

theorem motorOnCommand_free (hf : s.bsu.fire = none) (he : s.bsu.estop = none) :
    motorOnCommand p s = s.takeMotorOn p :=
  if_neg (by simp [State.motorHold, State.fireLatched, State.estopLatched, hf, he])

theorem takeMotorOn_of_running (h : (s.trm.get p).state ≠ .stopped) : s.takeMotorOn p = s := if_neg h

theorem takeMotorOn_of_stopped (h : (s.trm.get p).state = .stopped) :
    s.takeMotorOn p = { s with
      events := s.events ++ (if (s.trm.get p).loopClosed = some true then [] else [.filmBreak p (s.trm.get p).count])
      trm := s.trm.set p (s.trm.get p).startMotor } := by
  refine (if_pos h).trans ?_
  by_cases hl : (s.trm.get p).loopClosed = some true
  · simp [hl, State.modTrm]
  · simp [hl, State.modTrm, State.emit]

/-! ## The loop switch and the timers (R82 to R85) -/

theorem loopOpens_off (h : (s.trm.get p).motor = false) :
    loopOpens p s = s.modTrm p fun t => { t with loopClosed := some false } := by
  rw [loopOpens_eq]
  exact if_neg (by simp [h])

theorem loopOpens_breaks (h : (s.trm.get p).motor = true) (he : (s.trm.get p).pastEnd = false) :
    loopOpens p s =
      (s.modTrm p fun t => { t with loopClosed := some false }).emit (.filmBreak p (s.trm.get p).count) := by
  rw [loopOpens_eq]
  exact (if_pos h).trans (if_neg (by simp [he]))

theorem loopOpens_runs_out (h : (s.trm.get p).motor = true) (he : (s.trm.get p).pastEnd = true) :
    loopOpens p s = ((s.modTrm p fun t => { t with loopClosed := some false }).stopMotor p).emit
      (.runoutReached p (s.trm.get p).count) := by
  rw [loopOpens_eq]
  exact (if_pos h).trans (if_pos he)

theorem pastEnd_eq_false {t : Trm} (h : ∀ l, t.runLength = some l → t.count < l) : t.pastEnd = false := by
  unfold Trm.pastEnd
  split
  · next l hl => simpa using h l hl
  · rfl

theorem pastEnd_eq_true {t : Trm} {l : Nat} (hl : t.runLength = some l) (h : l ≤ t.count) : t.pastEnd = true := by
  simp [Trm.pastEnd, hl, h]

theorem cleanLoop_trm (s : State) (p : Proj) (v : Bool) :
    (s.cleanChange (.loopSwitch p) v).trm.get p = { s.trm.get p with loopSamples := [!v, v, v] } := by
  simp [State.cleanChange, State.keepSamples]

theorem runUpExpiry_running (ht : (s.trm.get p).runUpTimer = true) (hs : (s.trm.get p).state = .runUp) :
    runUpExpiry p s = (s.stopMotor p).emit (.runUpFail p (s.trm.get p).count) := if_pos ⟨ht, hs⟩

theorem stallExpiry_running (ht : (s.trm.get p).stallTimer = true) (hs : (s.trm.get p).state = .atSpeed) :
    stallExpiry p s = (s.stopMotor p).emit (.stall p (s.trm.get p).count) := if_pos ⟨ht, hs⟩

/-- Settles O41: each command by the transport's state, the motor hold and the count. -/
theorem transportsStartAndStop : Obligations.TransportsStartAndStop := by
  refine ⟨fun p s => ⟨fun h => ?_, fun h => ?_, fun hf he => ⟨fun h => ?_, fun h => ?_⟩, fun h => ?_⟩,
    fun p s => ⟨fun h => ?_, fun h hl => ?_, fun l h hs hl hc => ?_, ?_, fun ht hs => ?_, fun ht => ?_,
      fun ht hs => ?_, fun ht => ?_⟩⟩
  all_goals refine congrArg Host.Outcome.next ?_
  · exact stopMotor_of_stopped (by exact h)
  · exact stopMotor_of_running (by exact h)
  · exact (motorOnCommand_free (s := s.taken _) hf he).trans (takeMotorOn_of_running (by exact h))
  · exact (motorOnCommand_free (s := s.taken _) hf he).trans (takeMotorOn_of_stopped (by exact h))
  · exact motorOnCommand_held (s := s.taken _) h
  · rw [loopOpens_off (by rw [cleanLoop_trm]; exact h)]
    simp [State.cleanChange, State.keepSamples, State.modTrm, State.modPins]
  · rw [loopOpens_breaks (by rw [cleanLoop_trm]; exact h) (by rw [cleanLoop_trm]; exact pastEnd_eq_false hl)]
    simp [State.cleanChange, State.keepSamples, State.modTrm, State.modPins, State.emit]
  · rw [loopOpens_runs_out (by rw [cleanLoop_trm]; exact h) (by rw [cleanLoop_trm]; exact pastEnd_eq_true hl hc),
      stopMotor_of_running (by simpa [State.cleanChange, State.keepSamples] using hs)]
    simp [State.cleanChange, State.keepSamples, State.modTrm, State.modPins, State.emit]
  · simp [State.cleanChange, State.keepSamples, State.modTrm, State.modPins, loopCloses]
  · rw [runUpExpiry_running ht hs, stopMotor_of_running (by rw [hs]; decide)]
    rfl
  · exact if_neg fun hk => by simp [ht] at hk
  · rw [stallExpiry_running ht hs, stopMotor_of_running (by rw [hs]; decide)]
    rfl
  · exact if_neg fun hk => by simp [ht] at hk

/-! ## Cue windows (R88, R90 to R92) -/

theorem fireWindow_eq (s : State) (p : Proj) (w : CueWindow) (how : FiredAs) :
    s.fireWindow p w how = { s with
      events := s.events ++ [.cueFiredEvent p w.cue how (s.trm.get p).count]
      trm := s.trm.set p { s.trm.get p with window := none }
      cnl := s.cnl.raise ⟨s.bck.time, .cue p.screen p w.cue how w.centre (s.trm.get p).count
        (cueDiff (s.trm.get p).count w.centre)⟩ } := by
  simp [State.fireWindow, State.modTrm, State.emit, State.noteCue, State.note, State.modCnl]

theorem openWindow_waits {w : CueWindow} (h : (s.trm.get p).count < w.last) :
    s.openWindow p w = s.modTrm p fun t => { t with window := some w } := by
  simp [State.openWindow, h]

theorem openWindow_fires {w : CueWindow} (h : w.last ≤ (s.trm.get p).count) :
    s.openWindow p w = s.fireWindow p w .counted := by
  simp [State.openWindow, h, fireWindow_eq, State.modTrm]

/-- R90, R92: a mark edge, the level being recorded first. -/
theorem markEdge_eq (s : State) (p : Proj) :
    markEdge p s =
      let u := s.modTrm p fun t => { t with cueMark := some true }
      match (s.trm.get p).window with
      | some w => if w.sensedAt (s.trm.get p).count then u.fireWindow p w .sensed else u.modTrm p Trm.strayEdge
      | none => u.modTrm p Trm.strayEdge := by
  unfold markEdge
  simp only [State.modTrm_trm, Oct.get_set_self] <;> rfl

theorem markEdge_fires {w : CueWindow} (hw : (s.trm.get p).window = some w)
    (hs : w.sensedAt (s.trm.get p).count = true) :
    markEdge p s = (s.modTrm p fun t => { t with cueMark := some true }).fireWindow p w .sensed := by
  rw [markEdge_eq]
  simp only [hw, hs, if_true]

theorem markEdge_stray (h : ∀ w, (s.trm.get p).window = some w → w.sensedAt (s.trm.get p).count = false) :
    markEdge p s = (s.modTrm p fun t => { t with cueMark := some true }).modTrm p Trm.strayEdge := by
  rw [markEdge_eq]
  cases hw : (s.trm.get p).window with
  | none => rfl
  | some w => simp [h w hw]

theorem sensedAt_iff (w : CueWindow) (n : Nat) :
    w.sensedAt n = true ↔ w.mode = .sensed ∧ w.centre ≤ n + w.w ∧ n < w.centre + w.w := by
  simp [CueWindow.sensedAt, and_assoc]

/-- A window in COUNTED mode, or one whose span is still to come, is not fired by a mark. -/
theorem not_sensedAt {t : Trm} (h : t.window = none ∨
    (∃ w, t.window = some w ∧ (w.mode = .counted ∨ t.count + w.w < w.centre))) :
    ∀ w, t.window = some w → w.sensedAt t.count = false := by
  intro w hw
  rw [Bool.eq_false_iff, ne_eq, sensedAt_iff]
  rintro ⟨hm, hlo, -⟩
  obtain hn | ⟨w', hw', hc | hlt⟩ := h
  · simp [hn] at hw
  · obtain rfl : w' = w := Option.some.inj (hw'.symm.trans hw)
    simp [hc] at hm
  · obtain rfl : w' = w := Option.some.inj (hw'.symm.trans hw)
    omega

theorem cleanCue_trm (s : State) (p : Proj) (v : Bool) :
    (s.cleanChange (.cueSensor p) v).trm.get p = { s.trm.get p with cueSamples := [!v, v, v] } := by
  simp [State.cleanChange, State.keepSamples]

theorem strayEdge_on {t : Trm} (h : t.motor = true) :
    t.strayEdge = { t with
      stray := min 255 (t.stray + 1), strayOverflow := t.strayOverflow || decide (t.stray = 255) } := if_pos h

theorem strayEdge_off {t : Trm} (h : t.motor = false) : t.strayEdge = t := if_neg (by simp [h])

/-- Settles O42: a window by its last frame, an edge by the window's span. -/
theorem cueWindowsOpenFireAndClose : Obligations.CueWindowsOpenFireAndClose := by
  intro p cue centre s
  refine ⟨fun h => ?_, fun h => ?_, rfl, fun w hw hm h1 h2 => ?_, fun h => ⟨fun hm => ?_, fun hm => ?_⟩, ?_⟩
  all_goals refine congrArg Host.Outcome.next ?_
  · exact openWindow_waits (by exact h)
  · refine (openWindow_fires (by exact h)).trans ?_
    rw [fireWindow_eq]
    rfl
  · rw [markEdge_fires (by rw [cleanCue_trm]; exact hw)
      (by rw [cleanCue_trm]; exact (sensedAt_iff _ _).2 ⟨hm, h1, h2⟩), fireWindow_eq]
    simp [State.cleanChange, State.keepSamples, State.modTrm, State.modPins, cueDiff]
  · rw [markEdge_stray, State.modTrm, strayEdge_on]
    · simp [State.cleanChange, State.keepSamples, State.modTrm, State.modPins]
    · simpa [State.cleanChange, State.keepSamples] using hm
    · rw [cleanCue_trm]
      exact not_sensedAt h
  · rw [markEdge_stray, State.modTrm, strayEdge_off]
    · simp [State.cleanChange, State.keepSamples, State.modTrm, State.modPins]
    · simpa [State.cleanChange, State.keepSamples] using hm
    · rw [cleanCue_trm]
      exact not_sensedAt h
  · simp [State.cleanChange, State.keepSamples, State.modTrm, State.modPins, cueClears]

end Sys2Proof.Machine
end

section
namespace Sys2Proof.Machine

variable {s : State} {sc : Screen}

/-! ## Field areas (R2, R192) -/

theorem byte_read {n : Nat} (h : n < 256) : (BitVec.ofNat 8 n).toNat = n := by
  rw [BitVec.toNat_ofNat]
  exact Nat.mod_eq_of_lt h

theorem half_read {n : Nat} (h : n ≤ 65535) :
    256 * (BitVec.ofNat 8 (n / 256)).toNat + (BitVec.ofNat 8 n).toNat = n := by
  simp only [BitVec.toNat_ofNat]
  omega

theorem byteAt_lt (area : List Byte) (i : Nat) : byteAt area i < 256 := (area.getD i 0).isLt

theorem halfAt_le (area : List Byte) (i : Nat) : halfAt area i ≤ 65535 := by
  have := byteAt_lt area i
  have := byteAt_lt area (i + 1)
  unfold halfAt
  omega

/-- R4: the check of the lighting points is that of R2's ranges. -/
theorem pointsOk_iff {lp : Nat} {l : List LightPoint} (h : l.length ≤ 2) :
    pointsOk lp l = true ↔ (∀ x ∈ l, x.offset ≤ lp ∧ x.preset ≤ 7) ∧ l.Pairwise fun x y => x.offset ≤ y.offset := by
  match l, h with
  | [], _ => simp [pointsOk]
  | [x], _ => simp [pointsOk]
  | [x, y], _ => simp [pointsOk, and_assoc]

theorem reelOk_iff {r : Reel} (h : r.points.length ≤ 2) :
    reelOk r = true ↔ 1000 ≤ r.lp ∧ 0 < r.fm ∧ r.fm < r.fc ∧ r.fc ≤ r.lp ∧
      (∀ x ∈ r.points, x.offset ≤ r.lp ∧ x.preset ≤ 7) ∧ r.points.Pairwise fun x y => x.offset ≤ y.offset := by
  simp only [reelOk, Bool.and_eq_true, decide_eq_true_eq, pointsOk_iff h, and_assoc]

/-- R192: the lighting points read back from a field area. -/
theorem pointsOf_areaOf {r : Reel} (h : (EntryKind.reel r).Ranged) : pointsOf (areaOf (.reel r)) = r.points := by
  obtain ⟨-, hlp, -, -, -, -, hlen, hpoints, -⟩ := h
  have hread {x : LightPoint} (hx : x ∈ r.points) :
      256 * (BitVec.ofNat 8 (x.offset / 256)).toNat + (BitVec.ofNat 8 x.offset).toNat = x.offset ∧
      (BitVec.ofNat 8 x.preset).toNat = x.preset := by
    obtain ⟨hoffset, hpreset⟩ := hpoints x hx
    exact ⟨half_read (hoffset.trans hlp), byte_read (by omega)⟩
  match hr : r.points, hlen with
  | [], _ => simp [pointsOf, areaOf, pad16, bytes1, bytes2, byteAt, hr]
  | [x], _ =>
    obtain ⟨ho, hp⟩ := hread (x := x) (by simp [hr])
    simp [pointsOf, areaOf, pad16, bytes1, bytes2, byteAt, halfAt, hr, ho, hp, -BitVec.toNat_ofNat]
  | [x, y], _ =>
    obtain ⟨ho, hp⟩ := hread (x := x) (by simp [hr])
    obtain ⟨ho', hp'⟩ := hread (x := y) (by simp [hr])
    simp [pointsOf, areaOf, pad16, bytes1, bytes2, byteAt, halfAt, hr, ho, hp, ho', hp', -BitVec.toNat_ofNat]

/-- R192: a REEL's field area reads back as the reel. -/
theorem reelOfArea_areaOf {r : Reel} (h : (EntryKind.reel r).Ranged) : reelOfArea (areaOf (.reel r)) = some r := by
  have hpts := pointsOf_areaOf h
  obtain ⟨hlp, hlp', hfm, hfc, hfc', htitle, hlen, hpoints, hsorted⟩ := h
  have hok : reelOk r = true := (reelOk_iff hlen).2 ⟨hlp, hfm, hfc, hfc', hpoints, hsorted⟩
  have hside : sideOf (byteAt (areaOf (.reel r)) 0) = some r.side := by
    obtain ⟨side, _⟩ := r
    cases side <;> rfl
  have h1 : halfAt (areaOf (.reel r)) 1 = r.lp := half_read hlp'
  have h3 : halfAt (areaOf (.reel r)) 3 = r.fm := half_read (by omega)
  have h5 : halfAt (areaOf (.reel r)) 5 = r.fc := half_read (by omega)
  have h7 : halfAt (areaOf (.reel r)) 7 = r.title := half_read htitle
  have h9 : byteAt (areaOf (.reel r)) 9 = r.points.length := byte_read (by omega)
  unfold reelOfArea
  simp only [hside, h1, h3, h5, h7, h9, hpts]
  exact if_pos ⟨hlen, hok⟩

theorem areaOf_length {k : EntryKind} (h : k.Ranged) : (areaOf k).length = 16 := by
  cases k with
  | reel r =>
    obtain ⟨-, -, -, -, -, -, hlen, -, -⟩ := h
    match hr : r.points, hlen with
    | [], _ => simp [areaOf, pad16, hr]
    | [x], _ => simp [areaOf, pad16, hr]
    | [x, y], _ => simp [areaOf, pad16, hr]
  | _ => simp [areaOf, pad16]

theorem kindOfArea_areaOf {k : EntryKind} (h : k.Ranged) : kindOfArea k.code (areaOf k) = some k := by
  cases k with
  | empty => rfl
  | finish => rfl
  | link t =>
    have ht : t ≤ 23 := h
    have := byte_read (n := t) (by omega)
    simp [kindOfArea, EntryKind.code, areaOf, pad16, bytes1, byteAt, Config.bankSize]
    omega
  | interval d q =>
    obtain ⟨hd, hq⟩ : d ≤ 7200 ∧ q ≤ 7 := h
    have h1 := half_read (n := d) (by omega)
    have h2 := byte_read (n := q) (by omega)
    simp [kindOfArea, EntryKind.code, areaOf, pad16, bytes1, bytes2, byteAt, halfAt, h1, h2, hd, hq,
      -BitVec.toNat_ofNat]
  | reel r => exact congrArg (Option.map EntryKind.reel) (reelOfArea_areaOf h)

theorem reelOfArea_ranged {area : List Byte} {r : Reel} (h : reelOfArea area = some r) :
    (EntryKind.reel r).Ranged := by
  unfold reelOfArea at h
  split at h
  · cases h
  · next side hside =>
    dsimp only at h
    split at h
    · next hok =>
      obtain rfl := Option.some.inj h
      obtain ⟨hcount, hok⟩ := hok
      have hlen : (pointsOf area).length ≤ 2 := by simp [pointsOf]
      obtain ⟨hlp, hfm, hfc, hfc', hpoints, hsorted⟩ := (reelOk_iff hlen).1 hok
      exact ⟨hlp, halfAt_le _ _, hfm, hfc, hfc', halfAt_le _ _, hlen, hpoints, hsorted⟩
    · cases h

theorem kindOfArea_ranged {code : Nat} {area : List Byte} {k : EntryKind} (h : kindOfArea code area = some k) :
    k.Ranged ∧ k.code = code := by
  match code, h with
  | 0, h => obtain rfl := Option.some.inj h; exact ⟨trivial, rfl⟩
  | 1, h =>
    obtain ⟨r, hr, rfl⟩ := Option.map_eq_some_iff.1 h
    exact ⟨reelOfArea_ranged hr, rfl⟩
  | 2, h =>
    simp only [kindOfArea, Option.ite_none_right_eq_some] at h
    obtain ⟨hok, hk⟩ := h
    obtain rfl := Option.some.inj hk
    exact ⟨hok, rfl⟩
  | 3, h =>
    simp only [kindOfArea, Option.ite_none_right_eq_some] at h
    obtain ⟨hok, hk⟩ := h
    obtain rfl := Option.some.inj hk
    exact ⟨Nat.le_of_lt_succ hok, rfl⟩
  | 4, h => obtain rfl := Option.some.inj h; exact ⟨trivial, rfl⟩

/-! ## READ ENTRY (R6) -/

theorem bankOf_eq_some_iff {b : Byte} {x : BankId} : bankOf b = some x ↔ b.toNat = x.code := by
  unfold bankOf
  split
  · next h => cases x <;> simp [h, BankId.code]
  · next h => cases x <;> simp [h, BankId.code]
  · next h0 h1 =>
    cases x with
    | b0 => exact ⟨nofun, fun h => (h0 h).elim⟩
    | b1 => exact ⟨nofun, fun h => (h1 h).elim⟩

theorem bankOf_eq_none {b : Byte} (h : 2 ≤ b.toNat) : bankOf b = none := by
  unfold bankOf
  split <;> first | omega | rfl

theorem indexOf_of_lt {b : Byte} (h : b.toNat < 24) : indexOf b = some b.toNat := if_pos h

theorem indexOf_eq_none {b : Byte} (h : 24 ≤ b.toNat) : indexOf b = none := if_neg (Nat.not_lt.2 h)

theorem readEntry_noSuch {screen bank index : Byte}
    (h : ¬(1 ≤ screen.toNat ∧ screen.toNat ≤ 4) ∨ 2 ≤ bank.toNat ∨ 24 ≤ index.toNat) (tag : Byte) (s : State) :
    readEntry tag screen bank index s = s.answer 0x2A tag .noSuch := by
  unfold readEntry
  obtain h | h | h := h
  · simp only [screenOf_eq_none_iff.2 h]
  · cases screenOf screen <;> simp only [bankOf_eq_none h]
  · cases screenOf screen <;> cases bankOf bank <;> simp only [indexOf_eq_none h]

theorem readEntry_of_entry {screen bank index : Byte} {b : BankId} (hs : screen.toNat = sc.num)
    (hb : bank.toNat = b.code) (hi : index.toNat < 24) (tag : Byte) (s : State) :
    readEntry tag screen bank index s =
      s.reply 0x2A tag .done none
        (entryData (s.shc.get sc) b (entryAt ((s.shc.get sc).bank b) index.toNat)) := by
  simp only [readEntry, screenOf_eq_some_iff.2 hs, bankOf_eq_some_iff.2 hb, indexOf_of_lt hi]

theorem entryData_eq (c : Shc) (b : BankId) (e : Entry) :
    entryData c b e =
      [BitVec.ofNat 8 e.kind.code, BitVec.ofNat 8 e.state.code, if e.short then 1 else 0,
        if b = c.active then 0 else 1, if c.switch.isSome then 1 else 0] ++ areaOf e.kind := by
  unfold entryData
  split <;> rfl

/-- Settles O15: the round trips kind by kind, and the reply of READ ENTRY. -/
theorem entriesAreWrittenAndReadBack : Obligations.EntriesAreWrittenAndReadBack := by
  refine ⟨⟨fun k h => ⟨areaOf_length h, kindOfArea_areaOf h⟩, fun code area k h => kindOfArea_ranged h⟩,
    fun tag screen bank index s => ⟨fun h => ?_, fun sc b hs hb hi => ⟨?_, fun h => by rw [h]; rfl⟩⟩⟩
  · exact congrArg Host.Outcome.next (readEntry_noSuch h tag _)
  · refine congrArg Host.Outcome.next ((readEntry_of_entry hs hb hi tag _).trans ?_)
    rw [entryData_eq]
    rfl

/-! ## WRITE ENTRY (R4) -/

theorem writeEntry_noSuch {screen index : Byte} (h : ¬(1 ≤ screen.toNat ∧ screen.toNat ≤ 4) ∨ 24 ≤ index.toNat)
    (tag kind : Byte) (area : List Byte) (s : State) :
    writeEntry tag screen index kind area s = s.answer 0x28 tag .noSuch := by
  unfold writeEntry
  obtain h | h := h
  · simp only [screenOf_eq_none_iff.2 h]
  · cases screenOf screen <;> simp only [indexOf_eq_none h]

theorem writeEntry_of_entry {screen index : Byte} (hs : screen.toNat = sc.num) (hi : index.toNat < 24)
    (tag kind : Byte) (area : List Byte) (s : State) :
    writeEntry tag screen index kind area s =
      let c := s.shc.get sc
      if c.switch.isSome then s.answer 0x28 tag .pending
      else
        match kindOfArea kind.toNat area with
        | none => s.answer 0x28 tag .badField
        | some k =>
          ((s.modShc sc (·.modEntry c.staged index.toNat fun _ => Entry.written k)).noteLost sc c.staged index.toNat
            (entryAt (c.bank c.staged) index.toNat)).answer 0x28 tag .done := by
  simp only [writeEntry, screenOf_eq_some_iff.2 hs, indexOf_of_lt hi] <;> rfl

theorem noteLost_confirmed {e : Entry} {r : Reel} (hk : e.kind = .reel r) (he : e.state = .confirmed) (s : State)
    (sc : Screen) (b : BankId) (i : Nat) :
    s.noteLost sc b i e = s.noteEntry sc b i r .confirmationLost false none := by
  simp only [State.noteLost, hk, he, if_true]

theorem noteLost_other {e : Entry} (h : ∀ r, e.kind = .reel r → e.state ≠ .confirmed) (s : State) (sc : Screen)
    (b : BankId) (i : Nat) : s.noteLost sc b i e = s := by
  cases hk : e.kind <;> simp only [State.noteLost, hk]
  next r => exact if_neg (h r hk)

/-- A confirmation lost is a notice. -/
theorem noteLost_keeps (s : State) (sc : Screen) (b : BankId) (i : Nat) (e : Entry) :
    KeepsAllBut s (s.noteLost sc b i e) [.cnl] := by
  unfold State.noteLost
  split
  · split
    · exact keeps_note _ _
    · exact KeepsAllBut.refl _ _
  · exact KeepsAllBut.refl _ _

theorem modify_const (es : List Entry) (i : Nat) (e : Entry) : es.modify i (fun _ => e) = es.set i e := by
  rw [List.modify_eq_set_getElem?]
  cases h : es[i]? with
  | none => simp [List.set_eq_of_length_le (List.getElem?_eq_none_iff.1 h)]
  | some x => rfl

/-! ## CLEAR STAGED (R5) -/

/-- R5: the CONFIRMATION LOST notice of entry `i`, where it is a reel that is CONFIRMED. -/
def State.lostNotice (s : State) (sc : Screen) (b : BankId) (i : Nat) (e : Entry) : Option Notice :=
  match e.kind with
  | .reel r =>
    if e.state = .confirmed then
      some ⟨s.bck.time, .entry sc b i (sc.proj r.side) r.title .confirmationLost false
        (s.trm.get (sc.proj r.side)).count none⟩
    else none
  | _ => none

theorem noteLost_eq (s : State) (sc : Screen) (b : BankId) (i : Nat) (e : Entry) :
    s.noteLost sc b i e = s.modCnl ((s.lostNotice sc b i e).toList.foldl Cnl.raise) := by
  cases hk : e.kind with
  | reel r => by_cases he : e.state = .confirmed <;> simp only [State.noteLost, State.lostNotice, hk, he] <;> rfl
  | _ => simp only [State.noteLost, State.lostNotice, hk]; rfl

/-- R5: the notices of a cleared bank whose first entry has index `i`, in order of index. -/
def State.lostFrom (s : State) (sc : Screen) (b : BankId) (es : List Entry) (i : Nat) : List Notice :=
  (List.range es.length).filterMap fun n => s.lostNotice sc b (i + n) (entryAt es n)

theorem lostFrom_cons (s : State) (sc : Screen) (b : BankId) (e : Entry) (es : List Entry) (i : Nat) :
    s.lostFrom sc b (e :: es) i = (s.lostNotice sc b i e).toList ++ s.lostFrom sc b es (i + 1) := by
  unfold State.lostFrom
  rw [List.length_cons, List.range_succ_eq_map, List.filterMap_cons, List.filterMap_map]
  have htail : ((fun n => s.lostNotice sc b (i + n) (entryAt (e :: es) n)) ∘ Nat.succ) =
      fun n => s.lostNotice sc b (i + 1 + n) (entryAt es n) := by
    funext n
    simp [entryAt, Nat.add_assoc, Nat.add_comm 1 n]
  rw [htail, show entryAt (e :: es) 0 = e from rfl, Nat.add_zero]
  cases s.lostNotice sc b i e <;> rfl

theorem noteLostAll_eq (es : List Entry) (s : State) (sc : Screen) (b : BankId) (i : Nat) :
    s.noteLostAll sc b es i = s.modCnl ((s.lostFrom sc b es i).foldl Cnl.raise) := by
  induction es generalizing s i with
  | nil => rfl
  | cons e es ih =>
    rw [State.noteLostAll, ih, noteLost_eq, lostFrom_cons]
    simp only [State.modCnl, List.foldl_append]
    rfl

theorem lostConfirmations_eq (s : State) (sc : Screen) :
    s.lostConfirmations sc =
      s.lostFrom sc (s.shc.get sc).active.other ((s.shc.get sc).bank (s.shc.get sc).active.other) 0 := by
  simp only [State.lostConfirmations, State.lostFrom, Nat.zero_add]
  rfl

theorem clearStaged_noSuch {screen : Byte} (h : ¬(1 ≤ screen.toNat ∧ screen.toNat ≤ 4)) (tag : Byte) (s : State) :
    clearStaged tag screen s = s.answer 0x29 tag .noSuch := by
  simp only [clearStaged, screenOf_eq_none_iff.2 h]

theorem clearStaged_of_screen {screen : Byte} (h : screen.toNat = sc.num) (tag : Byte) (s : State) :
    clearStaged tag screen s =
      let c := s.shc.get sc
      if c.switch.isSome then s.answer 0x29 tag .pending
      else ((s.modShc sc (·.setBank c.staged (List.replicate Config.bankSize Entry.blank))).noteLostAll sc c.staged
        (c.bank c.staged) 0).answer 0x29 tag .done := by
  simp only [clearStaged, screenOf_eq_some_iff.2 h]

/-- Settles O14: the refusals, the entry written with its lost confirmation, and the staged bank cleared. -/
theorem writeEntryAndClearStaged : Obligations.WriteEntryAndClearStaged := by
  refine ⟨fun tag screen index kind area s => ⟨fun h => ?_, fun sc hs hi => ⟨fun hw => ?_, fun hw hk => ?_,
      fun k hw hk => ?_⟩⟩,
    fun tag screen s => ⟨fun h => ?_, fun sc hs => ⟨fun hw => ?_, fun hw => ?_⟩⟩⟩
  · exact congrArg Host.Outcome.next (writeEntry_noSuch h tag kind area _)
  · exact congrArg Host.Outcome.next ((writeEntry_of_entry hs hi tag kind area _).trans (if_pos hw))
  · refine congrArg Host.Outcome.next ((writeEntry_of_entry hs hi tag kind area _).trans ?_)
    simp only [hk]
    exact if_neg (by simp [hw])
  · have heq := writeEntry_of_entry (s := s.taken (.writeEntry tag screen index kind area)) hs hi tag kind area
    simp only [hk] at heq
    rw [if_neg (by simp [hw])] at heq
    have hkeep := noteLost_keeps ((s.taken (.writeEntry tag screen index kind area)).modShc sc
      (·.modEntry (s.shc.get sc).staged index.toNat fun _ => Entry.written k)) sc (s.shc.get sc).staged index.toNat
      (entryAt ((s.shc.get sc).bank (s.shc.get sc).staged) index.toNat)
    refine ⟨_, congrArg Host.Outcome.next heq, ?_, hkeep .events (by decide), ?_, fun r hr hc => ?_, fun hc => ?_⟩
    · exact ((((keeps_taken _ _).mono (by simp)).trans ((keeps_modShc _ _ _).mono (by simp))).trans
        (hkeep.mono (by simp))).trans ((keeps_reply _ _ _ _ _ _).mono (by simp))
    · refine Eq.trans (hkeep (.shc sc) (by simp)) ?_
      simp only [State.modShc_shc, Quad.get_set_self, Shc.modEntry, modify_const]
      rfl
    · rw [noteLost_confirmed (by exact hr) (by exact hc), State.noteEntry]
      rfl
    · rw [noteLost_other fun r _ => by exact hc]
      rfl
  · exact congrArg Host.Outcome.next (clearStaged_noSuch h tag _)
  · exact congrArg Host.Outcome.next ((clearStaged_of_screen hs tag _).trans (if_pos hw))
  · refine congrArg Host.Outcome.next ((clearStaged_of_screen hs tag _).trans ((if_neg (by simp [hw])).trans ?_))
    rw [noteLostAll_eq, lostConfirmations_eq]
    rfl

end Sys2Proof.Machine
end

section
namespace Sys2Proof.Machine

variable {s : State} {sc : Screen} {es : List Entry}

/-! ## LINK resolution (R9) -/

theorem resolveFrom_of_reel {p : Nat} {r : Reel} (h : (entryAt es p).kind = .reel r) (hops : Nat) :
    resolveFrom es hops p = .reel p r := by
  unfold resolveFrom
  simp only [h]

theorem resolveFrom_of_interval {p d q : Nat} (h : (entryAt es p).kind = .interval d q) (hops : Nat) :
    resolveFrom es hops p = .interval p d q := by
  unfold resolveFrom
  simp only [h]

theorem resolveFrom_of_finish {p : Nat} (h : (entryAt es p).kind = .finish) (hops : Nat) :
    resolveFrom es hops p = .finish := by
  unfold resolveFrom
  simp only [h]

theorem resolveFrom_of_empty {p : Nat} (h : (entryAt es p).kind = .empty) (hops : Nat) :
    resolveFrom es hops p = .fault p .emptyEntry := by
  unfold resolveFrom
  simp only [h]

theorem resolveFrom_of_selfLink {p : Nat} (h : (entryAt es p).kind = .link p) (hops : Nat) :
    resolveFrom es hops p = .fault p .selfLink := by
  unfold resolveFrom
  simp only [h, if_true]

theorem resolveFrom_of_link {p t : Nat} (h : (entryAt es p).kind = .link t) (ht : t ≠ p) (hops : Nat) :
    resolveFrom es (hops + 1) p = resolveFrom es hops t := by
  rw [resolveFrom]
  simp only [h, if_neg ht]

theorem resolveFrom_of_third {p t : Nat} (h : (entryAt es p).kind = .link t) (ht : t ≠ p) :
    resolveFrom es 0 p = .fault p .linkChain := by
  rw [resolveFrom]
  simp only [h, if_neg ht]

/-- An entry that is no LINK is the result whatever LINKs may still be followed. -/
theorem resolveFrom_of_no_link {p : Nat} (h : ∀ t, (entryAt es p).kind ≠ .link t) (m n : Nat) :
    resolveFrom es m p = resolveFrom es n p := by
  cases hk : (entryAt es p).kind with
  | empty => rw [resolveFrom_of_empty hk, resolveFrom_of_empty hk]
  | reel r => rw [resolveFrom_of_reel hk, resolveFrom_of_reel hk]
  | interval d q => rw [resolveFrom_of_interval hk, resolveFrom_of_interval hk]
  | link t => exact absurd hk (h t)
  | finish => rw [resolveFrom_of_finish hk, resolveFrom_of_finish hk]

/-- Settles O16: resolution by the kind of the entry it looks at, one LINK after the other. -/
theorem linksAreFollowedTwice : Obligations.LinksAreFollowedTwice := by
  refine fun es p => ⟨fun r h => resolveFrom_of_reel h 2, fun d q h => resolveFrom_of_interval h 2,
    fun h => resolveFrom_of_finish h 2, fun h => resolveFrom_of_empty h 2, fun h => resolveFrom_of_selfLink h 2,
    fun a h ha => ⟨fun hb => ?_, fun hb => ?_, fun b hb hba => ⟨fun hd => ?_, fun d hd hdb => ?_⟩⟩,
    fun h => if_pos (Nat.succ_lt_succ h), fun h => if_neg (Nat.not_lt.2 (Nat.succ_le_succ h))⟩
  all_goals refine (resolveFrom_of_link (hops := 1) h ha).trans ?_
  · exact resolveFrom_of_no_link hb 1 2
  · exact resolveFrom_of_selfLink hb 1
  · exact (resolveFrom_of_link hb hba 0).trans (resolveFrom_of_no_link hd 0 2)
  · exact (resolveFrom_of_link hb hba 0).trans (resolveFrom_of_third hd hdb)

/-- What a resolution arrives at is in the bank. -/
theorem kind_of_resolveFrom {hops p : Nat} :
    (∀ i r, resolveFrom es hops p = .reel i r → (entryAt es i).kind = .reel r) ∧
    (∀ i d q, resolveFrom es hops p = .interval i d q → (entryAt es i).kind = .interval d q) := by
  induction hops generalizing p with
  | zero =>
    cases hk : (entryAt es p).kind with
    | link t =>
      by_cases ht : t = p
      · subst ht
        rw [resolveFrom_of_selfLink hk]
        exact ⟨nofun, nofun⟩
      · rw [resolveFrom_of_third hk ht]
        exact ⟨nofun, nofun⟩
    | empty => rw [resolveFrom_of_empty hk]; exact ⟨nofun, nofun⟩
    | finish => rw [resolveFrom_of_finish hk]; exact ⟨nofun, nofun⟩
    | reel r =>
      rw [resolveFrom_of_reel hk]
      refine ⟨fun i r' h => ?_, nofun⟩
      obtain ⟨rfl, rfl⟩ := Resolved.reel.inj h
      exact hk
    | interval d q =>
      rw [resolveFrom_of_interval hk]
      refine ⟨nofun, fun i d' q' h => ?_⟩
      obtain ⟨rfl, rfl, rfl⟩ := Resolved.interval.inj h
      exact hk
  | succ hops ih =>
    cases hk : (entryAt es p).kind with
    | link t =>
      by_cases ht : t = p
      · subst ht
        rw [resolveFrom_of_selfLink hk]
        exact ⟨nofun, nofun⟩
      · rw [resolveFrom_of_link hk ht]
        exact ih
    | _ =>
      rw [resolveFrom_of_no_link (by simp [hk]) (hops + 1) hops]
      exact ih

theorem kind_of_nextAfter {j : Nat} :
    (∀ i r, nextAfter es j = .reel i r → (entryAt es i).kind = .reel r) ∧
    (∀ i d q, nextAfter es j = .interval i d q → (entryAt es i).kind = .interval d q) := by
  unfold nextAfter
  split
  · exact kind_of_resolveFrom
  · exact ⟨nofun, nofun⟩

/-! ## The walk of a staged bank (R11, R12) -/

/-- An index whose entry is not EMPTY lies in the bank. -/
theorem index_lt {i : Nat} (h : (entryAt es i).kind ≠ .empty) : i < es.length := by
  by_contra hge
  exact h (congrArg Entry.kind (List.getD_eq_default _ _ (Nat.not_lt.1 hge)))

/-- A resolution as it stands in the bank. -/
def Resolved.InBank (es : List Entry) : Resolved → Prop
  | .reel i r => (entryAt es i).kind = .reel r
  | .interval i d q => (entryAt es i).kind = .interval d q
  | _ => True

theorem inBank_resolve (es : List Entry) (p : Nat) : (resolve es p).InBank es := by
  cases h : resolve es p with
  | reel i r => exact kind_of_resolveFrom.1 i r h
  | interval i d q => exact kind_of_resolveFrom.2 i d q h
  | _ => trivial

theorem inBank_nextAfter (es : List Entry) (j : Nat) : (nextAfter es j).InBank es := by
  unfold nextAfter
  split
  · exact inBank_resolve _ _
  · trivial

/-- The entries along a path that `follow` takes lie in the bank. -/
theorem path_lt {path : List Nat} {res last : Resolved} (hres : res.InBank es)
    (h : follow es path res = some last) : ∀ i ∈ path, i < es.length := by
  induction path generalizing res with
  | nil => exact fun i hi => absurd hi List.not_mem_nil
  | cons i path ih =>
    have hstep {j : Nat} (hj : (entryAt es j).kind ≠ .empty)
        (hf : (if i = j then follow es path (nextAfter es j) else none) = some last) : ∀ k ∈ i :: path,
          k < es.length := by
      split at hf
      · next hij =>
        subst hij
        exact List.forall_mem_cons.2 ⟨index_lt hj, ih (inBank_nextAfter _ _) hf⟩
      · cases hf
    cases res with
    | reel j r => exact hstep (by rw [show (entryAt es j).kind = .reel r from hres]; nofun) h
    | interval j d q => exact hstep (by rw [show (entryAt es j).kind = .interval d q from hres]; nofun) h
    | finish => cases h
    | fault j why => cases h

/-- The walk along a path without repetition: it goes on from the path's end with the path reached and its seconds
summed. -/
theorem walk_along {path : List Nat} {res last : Resolved} (hres : res.InBank es)
    (h : follow es path res = some last) (hnodup : path.Nodup) (f fuel : Nat) {reached : List Nat}
    (hnew : ∀ i ∈ path, i ∉ reached) (sum : Nat) :
    walk es f (path.length + fuel) res reached sum =
      walk es f fuel last (path.reverse ++ reached) (sum + (path.map fun i => (entryAt es i).kind.seconds f).sum) := by
  induction path generalizing res reached sum with
  | nil =>
    obtain rfl := Option.some.inj h
    simp
  | cons i path ih =>
    obtain ⟨hi, hpath⟩ := List.nodup_cons.1 hnodup
    have hnew' : ∀ j ∈ path, j ∉ i :: reached := fun j hj hk =>
      (List.mem_cons.1 hk).elim (fun hji => hi (hji ▸ hj)) (hnew j (by simp [hj]))
    have hlen : (i :: path).length + fuel = path.length + fuel + 1 := by simp; omega
    have hstep {j : Nat} (hf : (if i = j then follow es path (nextAfter es j) else none) = some last)
        (hwalk : j ∉ reached → walk es f (path.length + fuel + 1) res reached sum =
          walk es f (path.length + fuel) (nextAfter es j) (j :: reached) (sum + (entryAt es j).kind.seconds f)) :
        walk es f (path.length + fuel + 1) res reached sum =
          walk es f fuel last ((i :: path).reverse ++ reached)
            (sum + ((i :: path).map fun i => (entryAt es i).kind.seconds f).sum) := by
      split at hf
      · next hij =>
        subst hij
        rw [hwalk (hnew i (by simp)), ih (inBank_nextAfter _ _) hf hpath hnew']
        simp [Nat.add_assoc]
      · cases hf
    rw [hlen]
    cases res with
    | reel j r =>
      have hkind : (entryAt es j).kind = .reel r := hres
      exact hstep h fun hj => by rw [walk, hkind]; exact if_neg hj
    | interval j d q =>
      have hkind : (entryAt es j).kind = .interval d q := hres
      exact hstep h fun hj => by rw [walk, hkind]; exact if_neg hj
    | finish => cases h
    | fault j why => cases h

theorem programmeWalk_of_reel {j : Nat} {q : Reel} (h : resolve es 0 = .reel j q) (f : Nat) :
    programmeWalk es f = walk es f 26 (resolve es 0) [] 0 := by
  unfold programmeWalk
  simp only [h]
  rfl

theorem programmeWalk_of_other (h : ∀ i r, resolve es 0 ≠ .reel i r) (f : Nat) : programmeWalk es f = .fault := by
  unfold programmeWalk
  split
  · next i r hr => exact absurd hr (h i r)
  · rfl

/-- R11: the walk of a bank of 24 entries has fuel left at the end of any path. -/
theorem programmeWalk_along {j : Nat} {q : Reel} {path : List Nat} {last : Resolved} (hes : es.length = 24)
    (h : resolve es 0 = .reel j q) (hnodup : path.Nodup) (hf : follow es path (resolve es 0) = some last) (f : Nat) :
    ∃ fuel, programmeWalk es f = walk es f (fuel + 1) last path.reverse
      (path.map fun i => (entryAt es i).kind.seconds f).sum := by
  have hlt := path_lt (inBank_resolve es 0) hf
  have hle : path.length ≤ 24 := by
    have hsub : path ⊆ List.range 24 := fun i hi => List.mem_range.2 (hes ▸ hlt i hi)
    simpa using (hnodup.subperm hsub).length_le
  refine ⟨25 - path.length, ?_⟩
  rw [programmeWalk_of_reel h, show 26 = path.length + (25 - path.length + 1) by omega,
    walk_along (inBank_resolve es 0) hf hnodup f _ (by simp) 0]
  simp

/-! ## The base advanced (R13) -/

theorem advanceBase_now {now tc left t0 made : Nat} (h : now ≤ t0) :
    advanceBase now tc left t0 made = some (t0, made) := by
  unfold advanceBase
  exact if_pos h

theorem advanceBase_single {now left t0 made : Nat} (h : t0 < now) : advanceBase now 0 left t0 made = none := by
  unfold advanceBase
  exact (if_neg (by omega)).trans (if_pos rfl)

/-- The least number of cycles that brings the base to the present. -/
def cyclesTo (now t0 tc : Nat) : Nat := (now - t0 + tc - 1) / tc

theorem cyclesTo_pos {now t0 tc : Nat} (h : t0 < now) (htc : 0 < tc) : 0 < cyclesTo now t0 tc :=
  Nat.div_pos (by omega) htc

theorem cyclesTo_one {now t0 tc : Nat} (h : t0 < now) (h1 : now ≤ t0 + tc) : cyclesTo now t0 tc = 1 :=
  Nat.div_eq_of_lt_le (by omega) (by omega)

theorem cyclesTo_succ {now t0 tc : Nat} (h : t0 + tc < now) (htc : 0 < tc) :
    cyclesTo now t0 tc = cyclesTo now (t0 + tc) tc + 1 := by
  unfold cyclesTo
  rw [← Nat.add_div_right _ htc]
  congr 1
  omega

theorem advanceBase_cycles {now tc left t0 : Nat} (h : t0 < now) (htc : 0 < tc) (made : Nat) :
    let n := cyclesTo now t0 tc
    advanceBase now tc left t0 made =
      if n ≤ left ∧ t0 + n * tc ≤ 4294967295 then some (t0 + n * tc, made + n) else none := by
  dsimp only
  induction left generalizing t0 made with
  | zero =>
    have := cyclesTo_pos h htc
    rw [advanceBase, if_neg (by omega), if_neg (by omega), if_neg (by omega)]
  | succ left ih =>
    rw [advanceBase, if_neg (by omega), if_neg (by omega)]
    by_cases hmax : 4294967295 < t0 + tc
    · have hpos := cyclesTo_pos h htc
      have : tc ≤ cyclesTo now t0 tc * tc := Nat.le_mul_of_pos_left tc hpos
      rw [if_neg (show ¬(_ ∧ _) by omega)]
      exact if_pos hmax
    · refine (if_neg hmax).trans ?_
      by_cases hnow : now ≤ t0 + tc
      · rw [advanceBase_now hnow, cyclesTo_one h hnow, Nat.one_mul, if_pos (by omega)]
      · rw [ih (by omega), cyclesTo_succ (t0 := t0) (by omega) htc]
        have hsum : t0 + (cyclesTo now (t0 + tc) tc + 1) * tc = t0 + tc + cyclesTo now (t0 + tc) tc * tc := by ring
        simp only [hsum, Nat.add_le_add_iff_right, Nat.add_assoc made 1, Nat.add_comm 1]

/-! ## SWITCH PROGRAMME (R11 to R13) -/

theorem switchProgramme_noSuch {screen : Byte} (h : ¬(1 ≤ screen.toNat ∧ screen.toNat ≤ 4)) (tag : Byte) (t0 tc : Word)
    (np : Half) (s : State) : switchProgramme tag screen t0 tc np s = s.answer 0x2B tag .noSuch := by
  simp only [switchProgramme, screenOf_eq_none_iff.2 h]

theorem switchProgramme_of_screen {screen : Byte} (h : screen.toNat = sc.num) (tag : Byte) (t0 tc : Word)
    (np : Half) (s : State) :
    switchProgramme tag screen t0 tc np s =
      let c := s.shc.get sc
      let w := programmeWalk (c.bank c.staged) c.setup.f
      if 86400 < tc.toNat then s.answer 0x2B tag .badField
      else if s.bck.isSet = false then s.answer 0x2B tag (.notReady .clock)
      else if c.switch.isSome then s.answer 0x2B tag .pending
      else if w = .fault then s.answer 0x2B tag .badProgramme
      else if cycleShort tc.toNat w then s.answer 0x2B tag .cycleShort
      else
        match advanceBase s.bck.time tc.toNat 255 t0.toNat 0 with
        | none => s.answer 0x2B tag .baseError
        | some (t, made) =>
          (s.modShc sc fun c => { c with switch := some ⟨t, tc.toNat, np.toNat⟩ }).reply 0x2B tag .accepted none
            (bytes1 made ++ bytes4 t) := by
  simp only [switchProgramme, screenOf_eq_some_iff.2 h]
  rfl

theorem cycleShort_total {tc sum : Nat} : cycleShort tc (.total sum) = true ↔ 0 < tc ∧ tc < sum := by
  simp [cycleShort]

theorem cycleShort_unbounded {tc : Nat} : cycleShort tc .unbounded = true ↔ 0 < tc := by simp [cycleShort]

/-- R13: the request with its base at `t`, after `made` cycles. -/
def acceptSwitch (tag : Byte) (sc : Screen) (tc : Word) (np : Half) (t made : Nat) (s : State) : State :=
  (s.modShc sc fun c => { c with switch := some ⟨t, tc.toNat, np.toNat⟩ }).reply 0x2B tag .accepted none
    (bytes1 made ++ bytes4 t)

/-- R13: a request that passes the checks is decided by its base alone. -/
theorem switchProgramme_checked {screen : Byte} {tc : Word} (h : screen.toNat = sc.num) (htc : tc.toNat ≤ 86400)
    (hset : s.bck.isSet = true) (hw : (s.shc.get sc).switch = none)
    (hfault : programmeWalk ((s.shc.get sc).bank (s.shc.get sc).staged) (s.shc.get sc).setup.f ≠ .fault)
    (hshort : cycleShort tc.toNat
      (programmeWalk ((s.shc.get sc).bank (s.shc.get sc).staged) (s.shc.get sc).setup.f) = false)
    (tag : Byte) (t0 : Word) (np : Half) :
    switchProgramme tag screen t0 tc np s =
      match advanceBase s.bck.time tc.toNat 255 t0.toNat 0 with
      | none => s.answer 0x2B tag .baseError
      | some (t, made) => acceptSwitch tag sc tc np t made s := by
  rw [switchProgramme_of_screen h]
  dsimp only
  rw [if_neg (by omega), if_neg (by simp [hset]), if_neg (by simp [hw]), if_neg hfault, if_neg (by simp [hshort])]
  rfl

/-- Settles O17: the walk along a path, then the request's checks and its base. -/
theorem switchProgrammeChecksAndAdvances : Obligations.SwitchProgrammeChecksAndAdvances := by
  refine ⟨fun es f hes => ⟨fun h => programmeWalk_of_other h f, fun j q path last h hne hnodup hf => ?_⟩,
    fun tag screen t0 tc np s =>
      ⟨fun h => ?_, fun sc h => ⟨fun htc => ?_, fun htc => ⟨fun hset => ?_, fun hset hw => ?_,
      fun hset hw => ⟨fun hf => ?_, fun hu hpos => ?_, fun sum hs hpos hlt => ?_, fun hok => ?_⟩⟩⟩⟩⟩
  · obtain ⟨fuel, hwalk⟩ := programmeWalk_along hes h hnodup hf f
    rw [hwalk]
    refine ⟨?_, ?_, ?_, ?_⟩
    · rintro i why rfl
      rfl
    · rintro rfl
      rfl
    · rintro i r rfl hi
      exact if_pos (List.mem_reverse.2 hi)
    · rintro i d p rfl hi
      exact if_pos (List.mem_reverse.2 hi)
  · exact congrArg Host.Outcome.next (switchProgramme_noSuch h tag t0 tc np _)
  · exact congrArg Host.Outcome.next ((switchProgramme_of_screen h tag t0 tc np _).trans (if_pos htc))
  · exact congrArg Host.Outcome.next ((switchProgramme_of_screen h tag t0 tc np _).trans
      ((if_neg (by omega)).trans (if_pos hset)))
  · exact congrArg Host.Outcome.next ((switchProgramme_of_screen h tag t0 tc np _).trans
      ((if_neg (by omega)).trans ((if_neg (by simp [hset])).trans (if_pos hw))))
  · exact congrArg Host.Outcome.next ((switchProgramme_of_screen h tag t0 tc np _).trans
      ((if_neg (by omega)).trans ((if_neg (by simp [hset])).trans ((if_neg (by simp [hw])).trans (if_pos hf)))))
  · refine congrArg Host.Outcome.next ((switchProgramme_of_screen h tag t0 tc np _).trans
      ((if_neg (by omega)).trans ((if_neg (by simp [hset])).trans ((if_neg (by simp [hw])).trans
        ((if_neg (by exact fun hk => by cases hu.symm.trans hk)).trans (if_pos ?_))))))
    exact (congrArg (cycleShort tc.toNat · = true) hu).mpr (cycleShort_unbounded.2 hpos)
  · refine congrArg Host.Outcome.next ((switchProgramme_of_screen h tag t0 tc np _).trans
      ((if_neg (by omega)).trans ((if_neg (by simp [hset])).trans ((if_neg (by simp [hw])).trans
        ((if_neg (by exact fun hk => by cases hs.symm.trans hk)).trans (if_pos ?_))))))
    exact (congrArg (cycleShort tc.toNat · = true) hs).mpr (cycleShort_total.2 ⟨hpos, hlt⟩)
  · have hfault : programmeWalk ((s.shc.get sc).bank (s.shc.get sc).staged) (s.shc.get sc).setup.f ≠ .fault := by
      intro hk
      obtain ⟨hu, -⟩ | ⟨sum, hs, -⟩ := hok
      · cases hu.symm.trans hk
      · cases hs.symm.trans hk
    have hshort : cycleShort tc.toNat
        (programmeWalk ((s.shc.get sc).bank (s.shc.get sc).staged) (s.shc.get sc).setup.f) = false := by
      rw [Bool.eq_false_iff]
      obtain ⟨hu, h0⟩ | ⟨sum, hs, h0⟩ := hok
      · have hu' : programmeWalk ((s.shc.get sc).bank (s.shc.get sc).staged) (s.shc.get sc).setup.f = .unbounded := hu
        rw [hu', ne_eq, cycleShort_unbounded]
        omega
      · have hs' : programmeWalk ((s.shc.get sc).bank (s.shc.get sc).staged) (s.shc.get sc).setup.f = .total sum := hs
        rw [hs', ne_eq, cycleShort_total]
        omega
    have hdecided := switchProgramme_checked (s := s.taken (.switchProgramme tag screen t0 tc np)) h htc hset hw hfault
      hshort tag t0 np
    refine ⟨fun hnow => ?_, fun hlt h0 => ?_, fun hlt hpos => ⟨fun hn hb => ?_, fun hn => ?_⟩⟩
    · rw [advanceBase_now (by exact hnow)] at hdecided
      exact congrArg Host.Outcome.next hdecided
    · rw [h0, advanceBase_single (by exact hlt)] at hdecided
      exact congrArg Host.Outcome.next hdecided
    · rw [advanceBase_cycles (by exact hlt) hpos] at hdecided
      rw [if_pos (by exact ⟨hn, hb⟩), Nat.zero_add] at hdecided
      exact congrArg Host.Outcome.next hdecided
    · rw [advanceBase_cycles (by exact hlt) hpos] at hdecided
      have hout : ¬(cyclesTo s.bck.time t0.toNat tc.toNat ≤ 255 ∧
          t0.toNat + cyclesTo s.bck.time t0.toNat tc.toNat * tc.toNat ≤ 4294967295) := fun hk =>
        hn.elim (fun h1 => absurd hk.1 (Nat.not_le.2 h1)) fun h1 => absurd hk.2 (Nat.not_le.2 h1)
      rw [if_neg (by exact hout)] at hdecided
      exact congrArg Host.Outcome.next hdecided

/-! ## The trim test (R119 to R123) -/

theorem ceilDiv_eq (n d : Nat) : ceilDiv n d = (n + d - 1) / d := by
  cases d with
  | zero => simp [ceilDiv]
  | succ d => rfl

/-- Settles O35: the test is the comparison, by the next entry and the case. -/
theorem trimTestComparesBurnTimes : Obligations.TrimTestComparesBurnTimes := by
  intro s sc i r k
  dsimp only
  rw [State.trimPasses, decide_eq_true_iff]
  simp only [requiredBurn, Shc.runFrames, ceilDiv_eq, preBurn, secondsToCue]
  cases (s.shc.get sc).next i <;> cases k <;> exact Iff.rfl

/-! ## Slots skipped (R16, R24) -/

theorem exhausted_iff (x : Schedule) : x.exhausted = false ↔ x.Left := by
  simp only [Schedule.exhausted, Schedule.Left, Bool.or_eq_false_iff, Bool.and_eq_false_iff, decide_eq_false_iff_not,
    and_assoc]
  simp only [Schedule.slotTime, Config.maxSlot, Config.maxTime]
  omega

/-- R18: the record with no slot left and no wait open is absent. -/
theorem holds_settle (x : Schedule) : Holds x.settle x := by
  refine ⟨fun h => ?_, fun hl hw => ?_⟩
  · refine if_neg fun hk => ?_
    obtain ⟨he, hn⟩ := Bool.and_eq_true_iff.1 hk
    obtain hl | hw := h
    · rw [(exhausted_iff x).2 hl] at he
      cases he
    · rw [Option.isNone_iff_eq_none.1 hn] at hw
      cases hw
  · refine if_pos (Bool.and_eq_true_iff.2 ⟨?_, by rw [hw]; rfl⟩)
    rw [← Bool.not_eq_false]
    exact mt (exhausted_iff x).1 hl

/-- R16, R24: the slots skipped are those that are left and gone, one after the other. -/
theorem skipSlots_spec (gone : Nat → Bool) (fuel : Nat) (x : Schedule) (count : Nat) :
    ∃ n, skipSlots gone fuel x count = ({ x with k := x.k + n }, count + n) ∧ n ≤ fuel ∧
      (∀ j, j < n → ({ x with k := x.k + j } : Schedule).Left ∧ gone (x.t0 + (x.k + j) * x.tc) = true) ∧
      (n < fuel → ({ x with k := x.k + n } : Schedule).Left → gone (x.t0 + (x.k + n) * x.tc) = false) := by
  induction fuel generalizing x count with
  | zero => exact ⟨0, rfl, Nat.le_refl 0, nofun, nofun⟩
  | succ fuel ih =>
    by_cases hgo : x.Left ∧ gone x.slotTime = true
    · obtain ⟨n, heq, hn, hall, hstop⟩ := ih { x with k := x.k + 1 } (count + 1)
      refine ⟨n + 1, ?_, by omega, fun j hj => ?_, fun hlt hl => ?_⟩
      · rw [skipSlots, if_pos (by simp [(exhausted_iff x).2 hgo.1, hgo.2]), heq]
        simp only [Nat.add_assoc, Nat.add_comm 1]
      · obtain rfl | ⟨j, rfl⟩ : j = 0 ∨ ∃ i, j = i + 1 := by cases j <;> simp
        · exact hgo
        · simpa only [Nat.add_assoc, Nat.add_comm 1] using hall j (by omega)
      · have := hstop (by omega)
        simp only [Nat.add_assoc, Nat.add_comm 1] at this
        exact this hl
    · refine ⟨0, ?_, Nat.zero_le _, nofun, fun _ hl => ?_⟩
      · rw [skipSlots, if_neg]
        · rfl
        · rintro hk
          simp only [Bool.and_eq_true, Bool.not_eq_true'] at hk
          exact hgo ⟨(exhausted_iff x).1 hk.1, hk.2⟩
      · rw [← Bool.not_eq_true]
        exact fun hg => hgo ⟨hl, hg⟩

/-- R16, R24: with 65,536 slots at most, the skipping ends at a slot that is not left or not gone. -/
theorem skipSlots_all (gone : Nat → Bool) (x : Schedule) :
    ∃ n, skipSlots gone (Config.maxSlot + 1) x 0 = ({ x with k := x.k + n }, n) ∧
      (∀ j, j < n → ({ x with k := x.k + j } : Schedule).Left ∧ gone (x.t0 + (x.k + j) * x.tc) = true) ∧
      (({ x with k := x.k + n } : Schedule).Left → gone (x.t0 + (x.k + n) * x.tc) = false) := by
  obtain ⟨n, heq, hn, hall, hstop⟩ := skipSlots_spec gone (Config.maxSlot + 1) x 0
  rw [Nat.zero_add] at heq
  refine ⟨n, heq, hall, fun hl => ?_⟩
  refine hstop (Nat.lt_of_le_of_ne hn fun hk => ?_) hl
  obtain ⟨-, -, hmax, -⟩ := hl
  dsimp only at hmax
  rw [hk] at hmax
  have : Config.maxSlot = 65535 := rfl
  omega

/-- R16, R24: no slot is skipped, or some are, with their notice and the record settled. -/
theorem skip_spec (s : State) (sc : Screen) (x : Schedule) (gone : Nat → Bool) (reason : SchedReason) :
    ∃ n, (∀ j, j < n → ({ x with k := x.k + j } : Schedule).Left ∧ gone (x.t0 + (x.k + j) * x.tc) = true) ∧
      (({ x with k := x.k + n } : Schedule).Left → gone (x.t0 + (x.k + n) * x.tc) = false) ∧
      (n = 0 → s.skip sc x gone reason = s) ∧
      (0 < n → s.skip sc x gone reason =
        (s.modShc sc fun c => { c with
          schedule := ({ x with k := x.k + n, preStrike := false } : Schedule).settle }).note
          (.schedule sc .skipped (some reason) (min 255 n) x.slotTime)) := by
  obtain ⟨n, heq, hall, hstop⟩ := skipSlots_all gone x
  refine ⟨n, hall, hstop, ?_, fun hn => ?_⟩
  · rintro rfl
    unfold State.skip
    rw [heq]
  · obtain ⟨m, rfl⟩ : ∃ m, n = m + 1 := ⟨n - 1, by omega⟩
    unfold State.skip
    rw [heq]

theorem running_of_none (h : (s.shc.get sc).schedule = none) : s.running sc = none := by
  unfold State.running
  simp only [h]

theorem running_of_suspended {x : Schedule} (h : (s.shc.get sc).schedule = some x) (hs : x.suspended = true) :
    s.running sc = none := by
  unfold State.running
  simp only [h, hs, if_true]

theorem running_of_some {x : Schedule} (h : (s.shc.get sc).schedule = some x) (hs : x.suspended = false) :
    s.running sc = some x := by
  unfold State.running
  simp only [h, hs, Bool.false_eq_true, if_false]

theorem clockSet_of_none (h : s.running sc = none) (old new : Nat) : clockSet sc old new s = s := by
  unfold clockSet
  simp only [h]

theorem clockSet_of_running {x : Schedule} (h : s.running sc = some x) (old new : Nat) :
    clockSet sc old new s = if old < new then s.skip sc x (fun t => t < new) .clockSet else s := by
  unfold clockSet
  simp only [h]

/-- Settles O24: the slots skipped are those of `skip_spec`. -/
theorem setClockSkipsOvertakenSlots : Obligations.SetClockSkipsOvertakenSlots := by
  intro sc old new y s
  refine ⟨fun h => congrArg Host.Outcome.next (clockSet_of_none (running_of_none (by exact h)) old new), fun h =>
    ⟨fun hk =>
    congrArg Host.Outcome.next ?_, fun hs hnew hslot hl => ?_⟩⟩
  · by_cases hs : y.suspended = true
    · exact clockSet_of_none (running_of_suspended (by exact h) hs) old new
    · refine (clockSet_of_running (running_of_some (by exact h) (by simpa using hs)) old new).trans ?_
      by_cases hlt : old < new
      · rw [if_pos hlt]
        obtain ⟨n, hall, -, hzero, -⟩ := skip_spec (s.taken (.clockSetEvent sc old new)) sc y (fun t => t < new)
          .clockSet
        refine hzero (Nat.eq_zero_of_not_pos fun hn => ?_)
        obtain ⟨hl, hg⟩ := hall 0 hn
        have hg' : y.t0 + y.k * y.tc < new := by simpa using hg
        obtain hk | hk | hk | hk := hk
        · exact hs hk
        · omega
        · omega
        · exact hk hl
      · exact if_neg hlt
  · obtain ⟨n, hall, hstop, hzero, hskip⟩ :=
      skip_spec (s.taken (.clockSetEvent sc old new)) sc y (fun t => t < new) .clockSet
    have hn : 0 < n := Nat.pos_of_ne_zero fun h0 => by
      subst h0
      have := hstop hl
      simp at this
      omega
    refine ⟨n, _, hn, holds_settle _, ?_, fun htc => ?_, fun j hj => ?_, fun hl' => ?_⟩
    · refine congrArg Host.Outcome.next ((clockSet_of_running (running_of_some (by exact h) hs) old new).trans
        ((if_pos hnew).trans (hskip hn)))
    · by_contra hne
      obtain ⟨⟨h0, -⟩, -⟩ := hall 1 (by omega)
      simp [htc] at h0
    · obtain ⟨hlj, hg⟩ := hall j hj
      exact ⟨hlj, by simpa using hg⟩
    · simpa using hstop hl'

end Sys2Proof.Machine
end

section
namespace Sys2Proof.Machine

/-! ## Entries of a bank -/

theorem entryAt_of_ge {es : List Entry} {k : Nat} (h : es.length ≤ k) : entryAt es k = Entry.blank :=
  List.getD_eq_default _ _ h

theorem entryAt_modify (es : List Entry) (i k : Nat) (f : Entry → Entry) :
    entryAt (es.modify i f) k = if i = k ∧ k < es.length then f (entryAt es k) else entryAt es k := by
  unfold entryAt
  rw [List.getD_eq_getElem?_getD, List.getD_eq_getElem?_getD, List.getElem?_modify]
  by_cases hk : k < es.length
  · by_cases hi : i = k <;> simp [hk, hi]
  · simp [hk]

theorem entryAt_map (es : List Entry) (k : Nat) (f : Entry → Entry) (hf : f Entry.blank = Entry.blank) :
    entryAt (es.map f) k = f (entryAt es k) := by
  unfold entryAt
  rw [List.getD_eq_getElem?_getD, List.getD_eq_getElem?_getD, List.getElem?_map]
  cases es[k]? <;> simp [hf]

theorem modShc_modShc (s : State) (sc : Screen) (f g : Shc → Shc) :
    (s.modShc sc f).modShc sc g = s.modShc sc fun c => g (f c) := by
  simp [State.modShc]

/-- What a search of a bank finds. -/
theorem findReel_eq_some {st : EntryState} {q : Reel → Bool} {es : List Entry} {n i : Nat} {r : Reel}
    (h : findReel st q es n = some (i, r)) :
    ∃ k, i = n + k ∧ k < es.length ∧ (entryAt es k).kind = .reel r ∧ (entryAt es k).state = st ∧ q r = true := by
  induction es generalizing n with
  | nil => cases h
  | cons e es ih =>
    have later (h : findReel st q es (n + 1) = some (i, r)) : ∃ k, i = n + k ∧ k < (e :: es).length ∧
        (entryAt (e :: es) k).kind = .reel r ∧ (entryAt (e :: es) k).state = st ∧ q r = true := by
      obtain ⟨k, hk, hlt, hfound⟩ := ih h
      exact ⟨k + 1, by omega, by simpa using hlt, hfound⟩
    unfold findReel at h
    split at h
    · next r' hkind =>
      split at h
      · next hhere =>
        obtain ⟨rfl, rfl⟩ := Prod.mk.inj (Option.some.inj h)
        exact ⟨0, rfl, by simp, hkind, hhere⟩
      · exact later h
    · exact later h

/-- A search finds nothing where no entry has what is sought. -/
theorem findReel_eq_none {st : EntryState} {q : Reel → Bool} {es : List Entry} {n : Nat}
    (h : ∀ k r, (entryAt es k).kind = .reel r → (entryAt es k).state = st → q r = false) :
    findReel st q es n = none := by
  induction es generalizing n with
  | nil => rfl
  | cons e es ih =>
    have later := ih (n := n + 1) fun k r hk => h (k + 1) r hk
    unfold findReel
    split
    · next r hkind =>
      rw [if_neg (fun hx => by simpa [hx.2] using h 0 r hkind hx.1)]
      exact later
    · exact later

/-- A search that finds nothing has passed every entry. -/
theorem not_of_findReel_eq_none {st : EntryState} {q : Reel → Bool} {es : List Entry} {n : Nat}
    (h : findReel st q es n = none) {k : Nat} {r : Reel} (hk : (entryAt es k).kind = .reel r)
    (hs : (entryAt es k).state = st) : q r = false := by
  induction es generalizing n k with
  | nil => simp [entryAt, Entry.blank] at hk
  | cons e es ih =>
    unfold findReel at h
    cases k with
    | zero =>
      have hk : e.kind = .reel r := hk
      have hs : e.state = st := hs
      rw [hk] at h
      cases hq : q r with
      | false => rfl
      | true => simp [hs, hq] at h
    | succ k =>
      split at h
      · split at h
        · cases h
        · exact ih h hk hs
      · exact ih h hk hs

namespace Shc

variable {c : Shc} {st : EntryState} {i : Nat} {r : Reel} {side : Side}

theorem holding_spec (h : c.holding st = some (i, r)) :
    i < (c.bank c.active).length ∧ (c.entry i).kind = .reel r ∧ (c.entry i).state = st := by
  obtain ⟨k, hk, hlt, hkind, hst, -⟩ := findReel_eq_some h
  obtain rfl : i = k := by omega
  exact ⟨hlt, hkind, hst⟩

theorem holdingOn_spec (h : c.holdingOn st side = some (i, r)) :
    i < (c.bank c.active).length ∧ (c.entry i).kind = .reel r ∧ (c.entry i).state = st ∧ r.side = side := by
  obtain ⟨k, hk, hlt, hkind, hst, hside⟩ := findReel_eq_some h
  obtain rfl : i = k := by omega
  exact ⟨hlt, hkind, hst, of_decide_eq_true hside⟩

theorem not_of_holding_none (h : c.holding st = none) (hk : (c.entry i).kind = .reel r) : (c.entry i).state ≠ st :=
  fun hs => by simpa using not_of_findReel_eq_none h hk hs

theorem not_of_holdingOn_none (h : c.holdingOn st side = none) (hk : (c.entry i).kind = .reel r)
    (hside : r.side = side) : (c.entry i).state ≠ st :=
  fun hs => by simpa [hside] using not_of_findReel_eq_none h hk hs

/-! ### What the operations on banks leave -/

variable (c) (b : BankId) (es : List Entry) (f : Entry → Entry) (on : Bool)

@[simp] theorem setBank_self : (c.setBank b es).bank b = es := by cases b <;> rfl
@[simp] theorem setBank_other : (c.setBank b es).bank b.other = c.bank b.other := by cases b <;> rfl
@[simp] theorem setBank_active : (c.setBank b es).active = c.active := by cases b <;> rfl
@[simp] theorem setBank_setup : (c.setBank b es).setup = c.setup := by cases b <;> rfl
@[simp] theorem setBank_switch : (c.setBank b es).switch = c.switch := by cases b <;> rfl
@[simp] theorem setBank_schedule : (c.setBank b es).schedule = c.schedule := by cases b <;> rfl
@[simp] theorem setBank_current : (c.setBank b es).current = c.current := by cases b <;> rfl
@[simp] theorem setBank_prep : (c.setBank b es).prep = c.prep := by cases b <;> rfl
@[simp] theorem setBank_countdown : (c.setBank b es).countdown = c.countdown := by cases b <;> rfl
@[simp] theorem setBank_preStrike : (c.setBank b es).preStrike = c.preStrike := by cases b <;> rfl
@[simp] theorem setBank_perfCount : (c.setBank b es).perfCount = c.perfCount := by cases b <;> rfl
@[simp] theorem setBank_muted : (c.setBank b es).muted = c.muted := by cases b <;> rfl
@[simp] theorem setBank_sound : (c.setBank b es).sound = c.sound := by cases b <;> rfl
@[simp] theorem setBank_progress : (c.setBank b es).progress = c.progress := by cases b <;> rfl
@[simp] theorem setBank_motor : (c.setBank b es).motor side = c.motor side := by cases b <;> rfl
@[simp] theorem setBank_douser : (c.setBank b es).douser side = c.douser side := by cases b <;> rfl
@[simp] theorem setMotor_active : (c.setMotor side on).active = c.active := by cases side <;> rfl
@[simp] theorem setMotor_bank : (c.setMotor side on).bank b = c.bank b := by cases side <;> cases b <;> rfl
@[simp] theorem setMotor_self : (c.setMotor side on).motor side = on := by cases side <;> rfl
@[simp] theorem setDouser_self : (c.setDouser side on).douser side = on := by cases side <;> rfl
@[simp] theorem setDouser_other : (c.setDouser side on).douser side.other = c.douser side.other := by cases side <;> rfl
@[simp] theorem modEntry_active : (c.modEntry b i f).active = c.active := setBank_active _ _ _
@[simp] theorem enter_active : (c.enter i st).active = c.active := setBank_active _ _ _

theorem modEntry_entry (k : Nat) :
    (c.modEntry c.active i f).entry k =
      if i = k ∧ k < (c.bank c.active).length then f (c.entry k) else c.entry k := by
  simp [entry, modEntry, entryAt_modify]

end Shc

/-! ## What an arming evaluation can change (R55 to R59, R62, R63)

An evaluation arms CONFIRMED entries and commands motors on; of the rest of the record it changes the strike frame and
the trim hold alone. -/

/-- `e'` is `e`, or `e` armed. -/
def Entry.Arms (e e' : Entry) : Prop := e' = e ∨ (e.state = .confirmed ∧ ∃ short, e' = e.arm short)

namespace Entry.Arms

variable {e e' e'' : Entry}

theorem refl (e : Entry) : e.Arms e := .inl rfl

theorem trans (h : e.Arms e') (k : e'.Arms e'') : e.Arms e'' := by
  obtain rfl | ⟨hs, short, rfl⟩ := h
  · exact k
  · obtain rfl | ⟨hs', -⟩ := k
    · exact .inr ⟨hs, short, rfl⟩
    · simp [Entry.arm] at hs'

theorem kind (h : e.Arms e') : e'.kind = e.kind := by
  obtain rfl | ⟨-, short, rfl⟩ := h <;> rfl

/-- An entry that was not CONFIRMED is as it was. -/
theorem eq (h : e.Arms e') (hs : e.state ≠ .confirmed) : e' = e := h.resolve_right fun x => hs x.1

theorem threaded (h : e.Arms e') (side : Side) :
    e'.reelOn side EntryState.threaded = e.reelOn side EntryState.threaded := by
  obtain rfl | ⟨hs, short, rfl⟩ := h
  · rfl
  · simp [Entry.reelOn, Entry.arm, hs, EntryState.threaded]

end Entry.Arms

/-- The banks `es` and `es'` differ by armings. -/
def BankArms : List Entry → List Entry → Prop := List.Forall₂ Entry.Arms

namespace BankArms

variable {es es' es'' : List Entry}

theorem refl (es : List Entry) : BankArms es es := List.forall₂_same.2 fun e _ => .refl e

theorem trans (h : BankArms es es') (k : BankArms es' es'') : BankArms es es'' := by
  induction h generalizing es'' with
  | nil => exact k
  | cons he _ ih =>
    cases k with
    | cons he' hk => exact .cons (he.trans he') (ih hk)

theorem entryAt (h : BankArms es es') (k : Nat) : (Machine.entryAt es k).Arms (Machine.entryAt es' k) := by
  induction h generalizing k with
  | nil => exact .refl _
  | cons he _ ih =>
    cases k with
    | zero => exact he
    | succ k => exact ih k

/-- An arming of a CONFIRMED entry. -/
theorem modify {i : Nat} (h : (Machine.entryAt es i).state = .confirmed) (short : Bool) :
    BankArms es (es.modify i (·.arm short)) := by
  induction es generalizing i with
  | nil => simpa using refl []
  | cons e es ih =>
    cases i with
    | zero => exact .cons (.inr ⟨h, short, rfl⟩) (refl es)
    | succ i => exact .cons (.refl e) (ih h)

theorem threaded_length (h : BankArms es es') (side : Side) :
    (es'.filter (·.reelOn side EntryState.threaded)).length = (es.filter (·.reelOn side EntryState.threaded)).length :=
  (List.rel_filter (fun _ _ ha => by simp [ha.threaded side]) h).length_eq.symm

end BankArms

/-- `d` is the record `c` after armings. -/
structure Shc.Arms (c d : Shc) : Prop where
  record : d = { c with
    bank0 := d.bank0, bank1 := d.bank1, strikeFrame := d.strikeFrame, trimHold := d.trimHold,
    preStrike := d.preStrike, motorA := d.motorA, motorB := d.motorB }
  banks : ∀ b, BankArms (c.bank b) (d.bank b)
  motors : ∀ side, c.motor side = true → d.motor side = true

namespace Shc.Arms

variable {c d e : Shc}

theorem refl (c : Shc) : c.Arms c := ⟨rfl, fun _ => .refl _, fun _ => id⟩

theorem trans (h : c.Arms d) (k : d.Arms e) : c.Arms e := by
  refine ⟨?_, fun b => (h.banks b).trans (k.banks b), fun side x => k.motors side (h.motors side x)⟩
  rw [k.record, h.record]

theorem active (h : c.Arms d) : d.active = c.active := by rw [h.record]
theorem state (h : c.Arms d) : d.state = c.state := by rw [h.record]
theorem prep (h : c.Arms d) : d.prep = c.prep := by rw [h.record]
theorem current (h : c.Arms d) : d.current = c.current := by rw [h.record]
theorem countdown (h : c.Arms d) : d.countdown = c.countdown := by rw [h.record]
theorem schedule (h : c.Arms d) : d.schedule = c.schedule := by rw [h.record]
theorem halt (h : c.Arms d) : d.halt = c.halt := by rw [h.record]
theorem sound (h : c.Arms d) : d.sound = c.sound := by rw [h.record]
theorem muted (h : c.Arms d) : d.muted = c.muted := by rw [h.record]
theorem perfCount (h : c.Arms d) : d.perfCount = c.perfCount := by rw [h.record]
theorem progress (h : c.Arms d) : d.progress = c.progress := by rw [h.record]
theorem setup (h : c.Arms d) : d.setup = c.setup := by rw [h.record]
theorem douser (h : c.Arms d) (side : Side) : d.douser side = c.douser side := by rw [h.record]; cases side <;> rfl

theorem entry (h : c.Arms d) (k : Nat) : (c.entry k).Arms (d.entry k) := by
  unfold Shc.entry
  rw [h.active]
  exact (h.banks _).entryAt k

theorem threadedOn (h : c.Arms d) (side : Side) : (d.threadedOn side).length = (c.threadedOn side).length := by
  unfold Shc.threadedOn
  have h0 := (h.banks .b0).threaded_length side
  have h1 := (h.banks .b1).threaded_length side
  simp only [Shc.bank] at h0 h1
  simp only [List.filter_append, List.length_append, h0, h1]

theorem fields (f : Shc → Shc) (c : Shc) (hr : f c = { c with
      strikeFrame := (f c).strikeFrame, trimHold := (f c).trimHold, preStrike := (f c).preStrike } := by rfl) :
    c.Arms (f c) := by
  rw [hr]
  exact ⟨rfl, fun b => by cases b <;> exact .refl _, fun side => by cases side <;> exact id⟩

theorem setMotor (c : Shc) (side : Side) : c.Arms (c.setMotor side true) := by
  cases side
  · exact ⟨rfl, fun b => by cases b <;> exact .refl _, fun side => by cases side <;> simp [Shc.setMotor, Shc.motor]⟩
  · exact ⟨rfl, fun b => by cases b <;> exact .refl _, fun side => by cases side <;> simp [Shc.setMotor, Shc.motor]⟩

theorem arm (c : Shc) {i : Nat} (h : (c.entry i).state = .confirmed) (short : Bool) :
    c.Arms (c.modEntry c.active i (·.arm short)) := by
  unfold Shc.entry at h
  unfold Shc.modEntry
  generalize c.active = b at h ⊢
  cases b
  · exact ⟨rfl, fun b => by cases b; exacts [.modify h short, .refl _], fun _ => id⟩
  · exact ⟨rfl, fun b => by cases b; exacts [.refl _, .modify h short], fun _ => id⟩

end Shc.Arms

variable {sc : Screen} {s t u : State}

/-- From `s` to `t` the record of screen `sc` has changed by armings alone, and no lamp's service record has. -/
structure Arms (sc : Screen) (s t : State) : Prop where
  record : (s.shc.get sc).Arms (t.shc.get sc)
  service : ∀ p, (t.alc.get p).service = (s.alc.get p).service

namespace Arms

theorem refl (s : State) : Arms sc s s := ⟨.refl _, fun _ => rfl⟩

theorem trans (h : Arms sc s t) (k : Arms sc t u) : Arms sc s u :=
  ⟨h.record.trans k.record, fun p => (k.service p).trans (h.service p)⟩

theorem of_shc (h : Arms sc s t) (e : u.shc = t.shc := by rfl)
    (a : ∀ p, (u.alc.get p).service = (t.alc.get p).service := by intro; rfl) : Arms sc s u :=
  ⟨e ▸ h.record, fun p => (a p).trans (h.service p)⟩

theorem shc (h : Arms sc s t) (f : Shc → Shc) (hf : (t.shc.get sc).Arms (f (t.shc.get sc))) :
    Arms sc s (t.modShc sc f) :=
  ⟨by simpa using h.record.trans hf, h.service⟩

theorem field (h : Arms sc s t) (f : Shc → Shc) (hr : ∀ c, f c = { c with
      strikeFrame := (f c).strikeFrame, trimHold := (f c).trimHold, preStrike := (f c).preStrike } := by intro; rfl) :
    Arms sc s (t.modShc sc f) :=
  h.shc f (.fields f _ (hr _))

theorem noteFault (h : Arms sc s t) (p : Nat) (res : Resolved) : Arms sc s (t.noteFault sc p res) := by
  unfold State.noteFault
  split
  · exact h.of_shc
  · exact h

theorem noteEntry (h : Arms sc s t) (b : BankId) (i : Nat) (r : Reel) (x : EntryReason) (short : Bool)
    (y : Option NotReady) : Arms sc s (t.noteEntry sc b i r x short y) := h.of_shc

theorem judge (h : Arms sc s t) (i : Nat) (r : Reel) (k : TrimCase) : Arms sc s (t.judge sc i r k).2 := by
  unfold State.judge
  split
  · exact h
  · dsimp only
    split
    · exact h.noteFault _ _
    · split <;> exact h.noteFault _ _

/-- R54: an armable candidate is a CONFIRMED entry. -/
theorem judge_confirmed {i : Nat} {r : Reel} {k : TrimCase} {short : Bool} {u : State}
    (he : t.judge sc i r k = (.armable short, u)) : ((u.shc.get sc).entry i).state = .confirmed := by
  unfold State.judge at he
  split at he
  · simp at he
  · next hb =>
    have hc : ((t.shc.get sc).entry i).state = .confirmed := by
      unfold State.blocker at hb
      by_contra hn
      split_ifs at hb
    have hu : u = t.noteFault sc (i + 1) ((t.shc.get sc).next i) := by
      dsimp only at he
      split at he
      · exact (Prod.mk.inj he).2.symm
      · split at he <;> simp at he; exact he.2.symm
    rw [hu]
    unfold State.noteFault
    split <;> exact hc

theorem arm (h : Arms sc s t) (i : Nat) (r : Reel) (short : Bool)
    (hc : ((t.shc.get sc).entry i).state = .confirmed) : Arms sc s (t.arm sc i r short) :=
  (h.shc (fun c => c.modEntry (t.shc.get sc).active i (·.arm short)) (Shc.Arms.arm _ hc short)).of_shc

/-- A STRIKE leaves every lamp's service record as it is. -/
theorem beginStrike_service (s : State) (p q : Proj) (x : LampCause) :
    ((s.beginStrike p x).alc.get q).service = (s.alc.get q).service := by
  by_cases hq : q = p
  · subst hq
    rw [(beginStrike_spec s q x).1]
    rfl
  · exact congrArg Alc.service ((beginStrike_spec s p x).2.2 (.alc q) (by simpa using hq))

theorem askStrike (h : Arms sc s t) (p : Proj) : Arms sc s (t.askStrike p).2 := by
  refine h.of_shc (Moves.askStrike_shows rfl).2 fun q => ?_
  unfold State.askStrike
  split
  · rfl
  · exact beginStrike_service _ _ _ _

theorem strikeIncoming (h : Arms sc s t) (i : Nat) (r : Reel) : Arms sc s (t.strikeIncoming sc i r) := by
  have hs := h.askStrike (sc.proj r.side)
  unfold State.strikeIncoming
  dsimp only
  split
  · exact h
  · split
    · next he => rw [he] at hs; exact hs
    · next he => rw [he] at hs; exact hs.noteEntry _ _ _ _ _ _

theorem dropStrikeFrame (h : Arms sc s t) : Arms sc s (t.dropStrikeFrame sc) := h.field _

theorem makeStrike (h : Arms sc s t) : Arms sc s (t.makeStrike sc) := by
  unfold State.makeStrike
  dsimp only
  split
  · exact h.dropStrikeFrame.strikeIncoming _ _
  · exact h.dropStrikeFrame

theorem placeStrike (h : Arms sc s t) (r : Reel) (fc n : Nat) : Arms sc s (t.placeStrike sc r fc n) := by
  unfold State.placeStrike
  dsimp only
  split
  · exact h.dropStrikeFrame
  · split
    · exact h.makeStrike
    · exact h.field _

theorem motorOn (h : Arms sc s t) (side : Side) : Arms sc s (t.motorOn (sc.proj side)) := by
  unfold State.motorOn
  rw [proj_screen]
  exact (h.shc (·.setMotor (sc.proj side).side true) (Shc.Arms.setMotor _ _)).of_shc

theorem startIncoming (h : Arms sc s t) (i : Nat) (r : Reel) : Arms sc s (t.startIncoming sc i r) := by
  unfold State.startIncoming
  dsimp only
  split
  · exact h.motorOn _
  · exact (h.motorOn _).dropStrikeFrame.strikeIncoming _ _

theorem afterArming (h : Arms sc s t) (i : Nat) (r : Reel) (k : TrimCase) : Arms sc s (t.afterArming sc i r k) := by
  unfold State.afterArming
  split
  · exact h
  · split
    · exact h.placeStrike _ _ _
    · exact h.startIncoming _ _

theorem setTrimHold (h : Arms sc s t) (x : Option Nat) : Arms sc s (t.setTrimHold sc x) := h.field _

theorem evaluateReel (h : Arms sc s t) (i : Nat) (r : Reel) : Arms sc s (t.evaluateReel sc i r) := by
  have hj := h.judge i r (t.evaluateCase sc)
  unfold State.evaluateReel
  dsimp only
  split
  · next he => rw [he] at hj; exact ((hj.arm _ _ _ (judge_confirmed he)).setTrimHold _).afterArming _ _ _
  · next he =>
    rw [he] at hj
    split
    · exact hj
    · exact (hj.noteEntry _ _ _ _ _ _).setTrimHold _
  · next he => rw [he] at hj; exact hj.setTrimHold _

theorem evaluate (h : Arms sc s t) : Arms sc s (t.evaluate sc) := by
  unfold State.evaluate
  dsimp only
  split
  · exact h
  · split
    · split
      · exact (h.noteFault _ _).setTrimHold _
      · exact (h.noteFault _ _).evaluateReel _ _
    · exact (h.noteFault _ _).setTrimHold _

/-- R39: a pre-strike changes the screen's record by its flag alone. -/
theorem intervalPreStrike (h : Arms sc s t) : Arms sc s (t.intervalPreStrike sc) := by
  unfold State.intervalPreStrike
  dsimp only
  split
  · split
    · split
      · exact ((h.noteFault _ _).askStrike _).field _
      · exact h.noteFault _ _
    · exact h.noteFault _ _
  · exact h

theorem resumeIncoming (h : Arms sc s t) : Arms sc s (t.resumeIncoming sc) := by
  unfold State.resumeIncoming
  dsimp only
  split
  · split
    · exact h.placeStrike _ _ _
    · split
      · exact h
      · exact h.startIncoming _ _
    · exact h
  · exact h

end Arms

/-- An evaluation is made in SHOWING, INTERVAL and GAP. -/
theorem evaluate_of_not_evaluated (h : (s.shc.get sc).evaluateAfter = none) : s.evaluate sc = s := by
  unfold State.evaluate
  simp only [h]

theorem evaluateAfter_of_other {c : Shc}
    (h : c.state = .idle ∨ c.state = .preparing ∨ c.state = .ending ∨ c.state = .halted) :
    c.evaluateAfter = none := by
  unfold Shc.evaluateAfter
  obtain h | h | h | h := h <;> simp only [h]

end Sys2Proof.Machine
end

section
namespace Sys2Proof.Machine

variable {s t : State} {sc : Screen} {c : Shc} {b : BankId} {r : Reel} {tag screen bank index confirm : Byte} {i : Nat}

/-! ## Threaded reels of a side (R3, R7) -/

theorem filter_modify_length_le {p : Entry → Bool} {es : List Entry} {f : Entry → Entry}
    (h : p (f (entryAt es i)) = true → p (entryAt es i) = true) :
    ((es.modify i f).filter p).length ≤ (es.filter p).length := by
  induction es generalizing i with
  | nil => simp
  | cons e es ih =>
    cases i with
    | zero =>
      have h : p (f e) = true → p e = true := h
      simp only [List.modify_zero_cons, List.filter_cons]
      split
      · next hf => simp [h hf]
      · split <;> simp
    | succ i =>
      have := ih h
      simp only [List.modify_succ_cons, List.filter_cons]
      split <;> simpa using this

theorem filter_modify_length_le_succ (p : Entry → Bool) (es : List Entry) (f : Entry → Entry) (i : Nat) :
    ((es.modify i f).filter p).length ≤ (es.filter p).length + 1 := by
  induction es generalizing i with
  | nil => simp
  | cons e es ih =>
    cases i with
    | zero =>
      simp only [List.modify_zero_cons, List.filter_cons]
      split <;> split <;> simp
      omega
    | succ i =>
      have := ih i
      simp only [List.modify_succ_cons, List.filter_cons]
      split <;> simpa using this

theorem filter_map_length_le {p : Entry → Bool} {es : List Entry} {f : Entry → Entry}
    (h : ∀ e ∈ es, p (f e) = true → p e = true) : ((es.map f).filter p).length ≤ (es.filter p).length := by
  rw [← List.countP_eq_length_filter, ← List.countP_eq_length_filter, List.countP_map]
  exact List.countP_mono_left h

theorem threadedOn_length (c : Shc) (side : Side) : (c.threadedOn side).length =
    (c.bank0.filter (·.reelOn side EntryState.threaded)).length +
      (c.bank1.filter (·.reelOn side EntryState.threaded)).length := by
  simp [Shc.threadedOn]

theorem threadedOn_modEntry_le {f : Entry → Entry} (side : Side)
    (h : (f (entryAt (c.bank b) i)).reelOn side EntryState.threaded = true →
      (entryAt (c.bank b) i).reelOn side EntryState.threaded = true) :
    ((c.modEntry b i f).threadedOn side).length ≤ (c.threadedOn side).length := by
  have := filter_modify_length_le (p := (·.reelOn side EntryState.threaded)) h
  rw [threadedOn_length, threadedOn_length]
  cases b <;> simp only [Shc.modEntry, Shc.setBank, Shc.bank] at this ⊢ <;> omega

theorem threadedOn_modEntry_le_succ (c : Shc) (b : BankId) (i : Nat) (f : Entry → Entry) (side : Side) :
    ((c.modEntry b i f).threadedOn side).length ≤ (c.threadedOn side).length + 1 := by
  have := filter_modify_length_le_succ (·.reelOn side EntryState.threaded) (c.bank b) f i
  rw [threadedOn_length, threadedOn_length]
  cases b <;> simp only [Shc.modEntry, Shc.setBank, Shc.bank] at this ⊢ <;> omega

/-- R7: a confirmation that moves threads no further entry. -/
theorem reelOn_unconfirm {side side' : Side} {e : Entry}
    (h : (e.unconfirm side).reelOn side' EntryState.threaded = true) :
    e.reelOn side' EntryState.threaded = true := by
  unfold Entry.unconfirm at h
  split at h
  · unfold Entry.reelOn Entry.become at h
    dsimp only at h
    split at h <;> simp [EntryState.threaded] at h
  · exact h

theorem threadedOn_unconfirm_le (c : Shc) (side side' : Side) :
    ((c.unconfirm side).threadedOn side').length ≤ (c.threadedOn side').length := by
  have h0 := filter_map_length_le (p := (·.reelOn side' EntryState.threaded)) (es := c.bank0)
    fun e _ => reelOn_unconfirm (side := side)
  have h1 := filter_map_length_le (p := (·.reelOn side' EntryState.threaded)) (es := c.bank1)
    fun e _ => reelOn_unconfirm (side := side)
  rw [threadedOn_length, threadedOn_length]
  exact Nat.add_le_add h0 h1

/-- R7: of a side that holds no engaged entry, none is threaded once its confirmation has moved. -/
theorem threadedOn_unconfirm_free {side : Side} (h : c.sideBusy side = false) :
    (c.unconfirm side).threadedOn side = [] := by
  have hfree : ∀ e ∈ c.bank0 ++ c.bank1, e.reelOn side EntryState.engaged = false := by
    simpa only [Shc.sideBusy, List.any_eq_false, Bool.not_eq_true] using h
  have hnone (e : Entry) (he : e.reelOn side EntryState.engaged = false) :
      (e.unconfirm side).reelOn side EntryState.threaded = false := by
    cases hk : e.kind with
    | reel r =>
      by_cases hs : r.side = side
      · cases hst : e.state <;>
          simp [Entry.unconfirm, Entry.reelOn, Entry.become, hk, hs, hst, EntryState.engaged, EntryState.threaded]
            at he ⊢
      · simp [Entry.unconfirm, Entry.reelOn, hk, hs]
    | _ => simp [Entry.unconfirm, Entry.reelOn, hk]
  refine List.filter_eq_nil_iff.2 fun e he => ?_
  have he : e ∈ (c.bank0 ++ c.bank1).map (Entry.unconfirm side) := by simpa [Shc.unconfirm] using he
  obtain ⟨e', he', rfl⟩ := List.mem_map.1 he
  simp [hnone e' (hfree e' he')]

/-- R7: the record after a confirmation of entry `i` of bank `b`, before any evaluation. -/
def Shc.confirmed (c : Shc) (b : BankId) (i : Nat) (side : Side) : Shc :=
  (c.unconfirm side).modEntry b i (·.become .confirmed)

theorem unconfirm_kind (side : Side) (e : Entry) : (e.unconfirm side).kind = e.kind := by
  unfold Entry.unconfirm
  split <;> rfl

theorem unconfirm_entryAt (c : Shc) (b : BankId) (i : Nat) (side : Side) :
    entryAt ((c.unconfirm side).bank b) i = (entryAt (c.bank b) i).unconfirm side := by
  cases b <;> exact entryAt_map _ _ _ rfl

theorem threadedOn_confirmed_le {side side' : Side} (hk : (entryAt (c.bank b) i).kind = .reel r) (hside : r.side = side)
    (hfree : c.sideBusy side = false) (h : (c.threadedOn side').length ≤ 1) :
    ((c.confirmed b i side).threadedOn side').length ≤ 1 := by
  by_cases hs : side' = side
  · subst hs
    have := threadedOn_modEntry_le_succ (c.unconfirm side') b i (·.become .confirmed) side'
    rw [threadedOn_unconfirm_free hfree] at this
    exact this
  · refine (threadedOn_modEntry_le side' fun hx => ?_).trans ((threadedOn_unconfirm_le c side side').trans h)
    have hne : r.side ≠ side' := fun e => hs (e ▸ hside)
    simp [unconfirm_entryAt, Entry.reelOn, Entry.become, unconfirm_kind, hk, hne] at hx

/-! ## CONFIRM REEL (R7, R8) -/

/-- What the CONFIRMATION MOVED notices leave. -/
theorem noteMoved_keeps (s : State) (sc : Screen) (b : BankId) (side : Side) (es : List Entry) (i : Nat) :
    KeepsAllBut s (s.noteMoved sc b side es i) [.cnl] ∧ Noted s.cnl (s.noteMoved sc b side es i).cnl := by
  induction es generalizing s i with
  | nil => exact ⟨KeepsAllBut.refl _ _, Noted.refl _⟩
  | cons e es ih =>
    have later (u : State) (h : KeepsAllBut s u [.cnl]) (hn : Noted s.cnl u.cnl) :
        KeepsAllBut s (u.noteMoved sc b side es (i + 1)) [.cnl] ∧
          Noted s.cnl (u.noteMoved sc b side es (i + 1)).cnl :=
      ⟨h.trans (ih u (i + 1)).1, hn.trans (ih u (i + 1)).2⟩
    unfold State.noteMoved
    split
    · split
      · exact later _ (keeps_note _ _) ⟨[_], rfl⟩
      · exact later _ (KeepsAllBut.refl _ _) (Noted.refl _)
    · exact later _ (KeepsAllBut.refl _ _) (Noted.refl _)

/-- R7: the state after the notices of a confirmation, before any evaluation. -/
def State.confirmNoted (s : State) (sc : Screen) (b : BankId) (i : Nat) (side : Side) : State :=
  ((s.modShc sc (·.confirmed b i side)).noteMoved sc .b0 side (s.shc.get sc).bank0 0).noteMoved sc .b1 side
    (s.shc.get sc).bank1 0

theorem confirmNoted_spec (s : State) (sc : Screen) (b : BankId) (i : Nat) (side : Side) :
    KeepsAllBut s (s.confirmNoted sc b i side) [.cnl, .shc sc] ∧ Noted s.cnl (s.confirmNoted sc b i side).cnl ∧
      (s.confirmNoted sc b i side).shc.get sc = (s.shc.get sc).confirmed b i side := by
  obtain ⟨h0, n0⟩ := noteMoved_keeps (s.modShc sc (·.confirmed b i side)) sc .b0 side (s.shc.get sc).bank0 0
  obtain ⟨h1, n1⟩ := noteMoved_keeps ((s.modShc sc (·.confirmed b i side)).noteMoved sc .b0 side (s.shc.get sc).bank0 0)
    sc .b1 side (s.shc.get sc).bank1 0
  have hnotes := h0.trans h1
  refine ⟨((keeps_modShc _ _ _).mono (by simp)).trans (hnotes.mono (by simp)), n0.trans n1, ?_⟩
  have hsame : (s.confirmNoted sc b i side).shc.get sc = (s.modShc sc (·.confirmed b i side)).shc.get sc :=
    hnotes (.shc sc) (by simp)
  rw [hsame]
  simp

theorem confirm_eq (s : State) (sc : Screen) (b : BankId) (i : Nat) (side : Side) :
    s.confirm sc b i side =
      if b = (s.shc.get sc).active then (s.confirmNoted sc b i side).evaluate sc else s.confirmNoted sc b i side := rfl

theorem confirm_threaded {side : Side} (s : State) (hk : (entryAt ((s.shc.get sc).bank b) i).kind = .reel r)
    (hfree : (s.shc.get sc).sideBusy r.side = false) (h : ((s.shc.get sc).threadedOn side).length ≤ 1) :
    (((s.confirm sc b i r.side).shc.get sc).threadedOn side).length ≤ 1 := by
  have hc := threadedOn_confirmed_le (side' := side) hk rfl hfree h
  rw [← (confirmNoted_spec s sc b i r.side).2.2] at hc
  rw [confirm_eq]
  split
  · have := (Arms.evaluate (Arms.refl (sc := sc) (s.confirmNoted sc b i r.side))).record.threadedOn side
    rw [this]
    exact hc
  · exact hc

theorem confirmRequest_noSuch
    (h : ¬(1 ≤ screen.toNat ∧ screen.toNat ≤ 4) ∨ 2 ≤ bank.toNat ∨ 24 ≤ index.toNat) (tag confirm : Byte) (s : State) :
    confirmRequest tag screen bank index confirm s = s.answer 0x2D tag .noSuch := by
  unfold confirmRequest
  obtain h | h | h := h
  · simp only [screenOf_eq_none_iff.2 h]
  · cases screenOf screen <;> simp only [bankOf_eq_none h]
  · cases screenOf screen <;> cases bankOf bank <;> simp only [indexOf_eq_none h]

theorem confirmRequest_reel (hs : screen.toNat = sc.num) (hb : bank.toNat = b.code) (hi : index.toNat < 24)
    (hk : (entryAt ((s.shc.get sc).bank b) index.toNat).kind = .reel r) (tag confirm : Byte) :
    confirmRequest tag screen bank index confirm s =
      if confirm = 1 then confirmReelOf tag sc b index.toNat r.side s
      else if confirm = 0 then withdrawReel tag sc b index.toNat r.side s
      else s.answer 0x2D tag .badField := by
  simp only [confirmRequest, screenOf_eq_some_iff.2 hs, bankOf_eq_some_iff.2 hb, indexOf_of_lt hi, hk]

theorem confirmRequest_no_reel (hs : screen.toNat = sc.num) (hb : bank.toNat = b.code) (hi : index.toNat < 24)
    (hk : ∀ r, (entryAt ((s.shc.get sc).bank b) index.toNat).kind ≠ .reel r) (tag confirm : Byte) :
    confirmRequest tag screen bank index confirm s = s.answer 0x2D tag .badField := by
  simp only [confirmRequest, screenOf_eq_some_iff.2 hs, bankOf_eq_some_iff.2 hb, indexOf_of_lt hi]

theorem withdrawReel_threaded {side : Side} (hk : (entryAt ((s.shc.get sc).bank b) i).kind = .reel r)
    (h : ((s.shc.get sc).threadedOn side).length ≤ 1) :
    (((withdrawReel tag sc b i r.side s).shc.get sc).threadedOn side).length ≤ 1 := by
  have lowered : (((s.shc.get sc).modEntry b i (·.become .loaded)).threadedOn side).length ≤ 1 := by
    refine (threadedOn_modEntry_le side fun hx => ?_).trans h
    simp [Entry.reelOn, Entry.become, hk, EntryState.threaded] at hx
  unfold withdrawReel
  dsimp only
  split
  · simpa [State.answer] using lowered
  · split
    · exact h
    · simpa [State.answer, State.dropStrikeFrame, Shc.threadedOn] using lowered
  · exact h
  · exact h
  · exact h

theorem confirmRequest_threaded {side : Side} (h : ((s.shc.get sc).threadedOn side).length ≤ 1) :
    (((confirmRequest tag screen bank index confirm s).shc.get sc).threadedOn side).length ≤ 1 := by
  cases hs : screenOf screen with
  | none =>
    simp only [confirmRequest, hs]
    exact h
  | some sc' =>
    by_cases hsc : sc = sc'
    · subst hsc
      unfold confirmRequest
      rw [hs]
      split
      · next he _ _ =>
        obtain rfl := Option.some.inj he
        split
        · next hk =>
          split
          · unfold confirmReelOf
            dsimp only
            split
            · exact h
            · split
              · exact h
              · next hfree => exact confirm_threaded s hk (by simpa using hfree) h
          · split
            · exact withdrawReel_threaded hk h
            · exact h
        · exact h
      · exact h
    · have hkeep : (confirmRequest tag screen bank index confirm s).shc.get sc = s.shc.get sc :=
        (Moves.confirmRequest (Moves.refl s) hs tag bank index confirm).keeps (.shc sc) (by simp [screenParts, hsc])
      rw [hkeep]
      exact h

/-- Settles O19: a confirmation empties its side before it threads one entry of it; an evaluation threads none. -/
theorem confirmKeepsThreadingExclusive : Obligations.ConfirmKeepsThreadingExclusive :=
  fun _ _ _ _ _ _ _ _ h => ⟨_, rfl, confirmRequest_threaded h⟩

theorem confirm_of_no_evaluation (h : b ≠ (s.shc.get sc).active ∨ (s.shc.get sc).state = .idle ∨
    (s.shc.get sc).state = .preparing ∨ (s.shc.get sc).state = .ending ∨ (s.shc.get sc).state = .halted)
    (i : Nat) (side : Side) : s.confirm sc b i side = s.confirmNoted sc b i side := by
  rw [confirm_eq]
  split
  · next hb =>
    refine evaluate_of_not_evaluated (evaluateAfter_of_other ?_)
    rw [(confirmNoted_spec s sc b i side).2.2]
    simpa [Shc.confirmed, Shc.unconfirm, hb] using h
  · rfl

theorem withdrawReel_of_confirmed {side : Side} (h : (entryAt ((s.shc.get sc).bank b) i).state = .confirmed) :
    withdrawReel tag sc b i side s = (s.modShc sc (·.modEntry b i (·.become .loaded))).answer 0x2D tag .done := by
  simp only [withdrawReel, h]

theorem withdrawReel_of_armed {side : Side} (h : (entryAt ((s.shc.get sc).bank b) i).state = .armed) :
    withdrawReel tag sc b i side s =
      if ((s.shc.get sc).state = .preparing ∧ b = (s.shc.get sc).active ∧ (s.shc.get sc).current = i) ∨
          (s.trm.get (sc.proj side)).motor = true then s.answer 0x2D tag .busy
      else ((s.modShc sc (·.modEntry b i (·.become .loaded))).dropStrikeFrame sc).answer 0x2D tag .done := by
  simp only [withdrawReel, h]

theorem withdrawReel_of_engaged {side : Side} (h : (entryAt ((s.shc.get sc).bank b) i).state = .onScreen ∨
    (entryAt ((s.shc.get sc).bank b) i).state = .runningOut) :
    withdrawReel tag sc b i side s = s.answer 0x2D tag .busy := by
  obtain h | h := h <;> simp only [withdrawReel, h]

theorem withdrawReel_of_unthreaded {side : Side} (h : (entryAt ((s.shc.get sc).bank b) i).state = .loaded ∨
    (entryAt ((s.shc.get sc).bank b) i).state = .done) :
    withdrawReel tag sc b i side s = s.answer 0x2D tag .already := by
  obtain h | h := h <;> simp only [withdrawReel, h]

/-- Settles O20: the checks of a confirmation and of a withdrawal, by the entry's state. -/
theorem confirmationsAreGivenAndWithdrawn : Obligations.ConfirmationsAreGivenAndWithdrawn := by
  refine ⟨fun tag screen bank index confirm s => ?_, fun tag screen bank index sc b r s => ?_⟩
  · intro x reply
    refine ⟨fun h => congrArg Host.Outcome.next (confirmRequest_noSuch h tag confirm _), fun sc b hs hb hi => ?_⟩
    refine ⟨fun hk => congrArg Host.Outcome.next (confirmRequest_no_reel (s := s.taken x) hs hb hi hk tag confirm),
      fun r hk => ?_⟩
    have run : exec x s = _ :=
      congrArg Host.Outcome.next (confirmRequest_reel (s := s.taken x) hs hb hi hk tag confirm)
    refine ⟨fun h1 h0 => ?_, fun h1 hc => ?_, fun h1 hc hbusy => ?_, fun h1 hc hfree hquiet => ?_⟩
    · rw [run, if_neg h1, if_neg h0]; rfl
    · rw [run, if_pos h1]
      exact congrArg Host.Outcome.next (if_pos hc)
    · rw [run, if_pos h1]
      exact congrArg Host.Outcome.next ((if_neg hc).trans (if_pos hbusy))
    · obtain ⟨hkeep, ⟨ns, hns⟩, hrec⟩ := confirmNoted_spec (s.taken x) sc b index.toNat r.side
      have hdone : confirmReelOf tag sc b index.toNat r.side (s.taken x) =
          ((s.taken x).confirmNoted sc b index.toNat r.side).answer 0x2D tag .done := by
        rw [← confirm_of_no_evaluation (s := s.taken x) hquiet]
        exact (if_neg hc).trans (if_neg (by simpa using hfree))
      rw [if_pos h1, hdone] at run
      refine ⟨_, run, ?_, ?_, ⟨ns, ?_⟩, hrec⟩
      · exact (((keeps_taken s x).mono (by simp)).trans (hkeep.mono (by simp))).trans
          ((keeps_reply _ _ _ _ _ _).mono (by simp))
      · have hev : ((s.taken x).confirmNoted sc b index.toNat r.side).events = (s.taken x).events :=
          hkeep .events (by simp)
        exact hev
      · exact congrArg (Cnl.fill · _) hns
  · intro x c e reply lowered hs hb hi hk
    have run : exec x s = .next (withdrawReel tag sc b index.toNat r.side (s.taken x)) :=
      congrArg Host.Outcome.next ((confirmRequest_reel (s := s.taken x) hs hb hi hk tag 0).trans
        ((if_neg (by decide)).trans (if_pos rfl)))
    rw [run]
    refine ⟨fun h => ?_, fun h hbusy => ?_, fun h hfirst hmotor => ?_, fun h => ?_, fun h => ?_⟩
    · exact congrArg Host.Outcome.next (withdrawReel_of_confirmed (s := s.taken x) h)
    · exact congrArg Host.Outcome.next ((withdrawReel_of_armed (s := s.taken x) h).trans (if_pos hbusy))
    · rw [withdrawReel_of_armed (s := s.taken x) h, if_neg]
      · rw [State.dropStrikeFrame, modShc_modShc]
        rfl
      · exact fun hx => hx.elim hfirst fun hm => by simp [hmotor] at hm
    · exact congrArg Host.Outcome.next (withdrawReel_of_engaged (s := s.taken x) h)
    · exact congrArg Host.Outcome.next (withdrawReel_of_unthreaded (s := s.taken x) h)

end Sys2Proof.Machine
end

section
namespace Sys2Proof.Machine

variable {l m : List Part} {sc : Screen} {c d : Shc} {es es' : List Instr} {s t u : State} {p : Proj} {side : Side}

/-! ## What an operation of a screen does

`Acts l sc d es s t`: from `s` to `t` the record of screen `sc` has become `d`, the events `es` have been raised,
notices have been given, and nothing else has changed but the parts `l`. -/

structure Acts (l : List Part) (sc : Screen) (d : Shc) (es : List Instr) (s t : State) : Prop where
  keeps : KeepsAllBut s t (.events :: .cnl :: .shc sc :: l)
  noted : Noted s.cnl t.cnl
  shc : t.shc.get sc = d
  events : t.events = s.events ++ es

namespace Acts

theorem start (s : State) : Acts l sc (s.shc.get sc) [] s s :=
  ⟨KeepsAllBut.refl _ _, Noted.refl _, rfl, by simp⟩

theorem trans (h : Acts l sc c es s t) (k : Acts l sc d es' t u) : Acts l sc d (es ++ es') s u :=
  ⟨h.keeps.trans k.keeps, h.noted.trans k.noted, k.shc, by rw [k.events, h.events, List.append_assoc]⟩

theorem mono (h : Acts l sc d es s t) (hl : ∀ x ∈ l, x ∈ m) : Acts m sc d es s t :=
  ⟨h.keeps.mono fun x hx => by simp only [List.mem_cons] at hx ⊢; tauto, h.noted, h.shc, h.events⟩

theorem alc (h : Acts [] sc d es s t) (p : Proj) : t.alc.get p = s.alc.get p := h.keeps (.alc p) (by simp)
theorem trm (h : Acts [] sc d es s t) (p : Proj) : t.trm.get p = s.trm.get p := h.keeps (.trm p) (by simp)

theorem note (h : Acts l sc d es s t) (b : NoticeBody) : Acts l sc d es s (t.note b) :=
  ⟨h.keeps.trans ((keeps_note _ _).mono (by simp)), h.noted.trans ⟨[_], rfl⟩, h.shc, h.events⟩

theorem noteEntry (h : Acts l sc d es s t) (b : BankId) (i : Nat) (r : Reel) (x : EntryReason) (short : Bool)
    (y : Option NotReady) : Acts l sc d es s (t.noteEntry sc b i r x short y) := h.note _

theorem noteScreen (h : Acts l sc d es s t) (old : ScreenState) (cause : ScreenCause) (x : Option HaltReason) :
    Acts l sc d es s (t.noteScreen sc old cause x) := h.note _

theorem noteFault (h : Acts l sc d es s t) (n : Nat) (x : Resolved) : Acts l sc d es s (t.noteFault sc n x) := by
  unfold State.noteFault
  split
  · exact h.note _
  · exact h

theorem emit (h : Acts l sc d es s t) (e : Instr) : Acts l sc d (es ++ [e]) s (t.emit e) :=
  ⟨h.keeps.trans ((keeps_emit _ _).mono (by simp)), h.noted, h.shc, by simp [h.events]⟩

theorem modShc (h : Acts l sc d es s t) (f : Shc → Shc) : Acts l sc (f d) es s (t.modShc sc f) :=
  ⟨h.keeps.trans ((keeps_modShc _ _ _).mono (by simp)), h.noted, by simp [h.shc], h.events⟩

theorem motorOn (h : Acts l sc d es s t) (side : Side) :
    Acts l sc (d.setMotor side true) (es ++ [.motorOnCommand (sc.proj side)]) s (t.motorOn (sc.proj side)) := by
  unfold State.motorOn
  rw [proj_screen, proj_side]
  exact (h.modShc (·.setMotor side true)).emit _

theorem motorOff (h : Acts l sc d es s t) (side : Side) :
    Acts l sc (d.setMotor side false) (es ++ [.motorStop (sc.proj side)]) s (t.motorOff (sc.proj side)) := by
  unfold State.motorOff
  rw [proj_screen, proj_side]
  exact (h.modShc (·.setMotor side false)).emit _

theorem postShow (h : Acts l sc d es s t) (n : Nat) :
    Acts l sc d (es ++ [.post sc .show_ n]) s (t.postShow sc n) := h.emit _

theorem postHalt (h : Acts l sc d es s t) (n : Nat) :
    Acts l sc d (es ++ [.post sc .halt n]) s (t.postHalt sc n) := h.emit _

theorem modAlc (h : Acts l sc d es s t) (hp : .alc p ∈ l) (f : Alc → Alc) : Acts l sc d es s (t.modAlc p f) :=
  ⟨h.keeps.trans ((keeps_modAlc _ _ _).mono (by simp [hp])), h.noted, h.shc, h.events⟩

theorem unserve (h : Acts l sc d es s t) (hp : .alc p ∈ l) : Acts l sc d es s (t.unserve p) := h.modAlc hp _

theorem serve (h : Acts l sc d es s t) (i : Nat) (r : Reel) (hp : .alc (sc.proj r.side) ∈ l) :
    Acts l sc d es s (t.serve sc i r) := h.modAlc hp _

/-- R55: an arming of the entry `i`. -/
theorem arm (h : Acts l sc d es s t) (i : Nat) (r : Reel) (short : Bool) (hp : .trm (sc.proj r.side) ∈ l) :
    Acts l sc (d.modEntry d.active i (·.arm short)) es s (t.arm sc i r short) := by
  have hshc := h.modShc (·.modEntry d.active i (·.arm short))
  have harm : Acts l sc (d.modEntry d.active i (·.arm short)) es s
      ((t.modShc sc (·.modEntry d.active i (·.arm short))).modTrm (sc.proj r.side) (·.armFor r.lp)) :=
    ⟨hshc.keeps.trans ((keeps_modTrm _ _ _).mono (by simp [hp])), hshc.noted, hshc.shc, hshc.events⟩
  unfold State.arm
  dsimp only
  rw [h.shc]
  exact harm.noteEntry _ _ _ _ _ _

/-- R59: a strike that is accepted. -/
theorem strike (h : Acts l sc d es s t) (hp : .alc p ∈ l) (cause : LampCause) :
    Acts l sc d (es ++ [.lampStateChange p .striking (t.alc.get p).state cause]) s (t.beginStrike p cause) := by
  have hs := (beginStrike_spec t p cause).2.2
  refine ⟨h.keeps.trans (hs.mono (by simp [hp])), h.noted.trans ⟨[_], by rw [beginStrike_eq]; rfl⟩, ?_, ?_⟩
  · rw [← h.shc]; exact hs (.shc sc) (by simp)
  · rw [beginStrike_eq, ← List.append_assoc, ← h.events]

/-- R71: a lamp put out, or found DARK. -/
theorem extinguish (h : Acts l sc d es s t) (hp : .alc p ∈ l) :
    ∃ es', Acts l sc d (es ++ es') s (t.shcExtinguish p) := by
  unfold State.shcExtinguish
  by_cases hd : (t.alc.get p).state = .dark
  · rw [putOut_of_dark hd]
    exact ⟨[], by simpa using h⟩
  · rw [putOut_of_not_dark hd, lampChange_eq]
    refine ⟨[.lampStateChange p .dark (t.alc.get p).state (.extinguished .show_)], h.keeps.trans ?_,
      h.noted.trans ⟨[_], rfl⟩, h.shc, ?_⟩
    · rw [← lampChange_eq]
      exact (lampChange_spec _ _ _ _).2.2.2.mono (by simp [hp])
    · rw [← List.append_assoc, ← h.events]

theorem runoutLamp (h : Acts l sc d es s t) (hp : .alc p ∈ l) : ∃ es', Acts l sc d (es ++ es') s (t.runoutLamp p) := by
  unfold State.runoutLamp
  split
  · exact ⟨[], by simpa using h⟩
  · exact h.extinguish hp

/-- The commands of a taken event or request read. -/
theorem taken {x : Instr} (h : Acts l sc d es (s.taken x) t) :
    KeepsAllBut s t (.events :: .cnl :: .shc sc :: l) ∧ Noted s.cnl t.cnl ∧ t.events = s.events.erase x ++ es :=
  ⟨((keeps_taken s x).mono (by simp)).trans h.keeps, h.noted, h.events⟩

end Acts

theorem shcExtinguish_dark (s : State) (p : Proj) : ((s.shcExtinguish p).alc.get p).state = .dark :=
  (putOut_spec s p (.extinguished .show_)).2.1

theorem runoutLamp_dark (h : (s.shc.get p.screen).holdingOn .armed p.side = none) :
    ((s.runoutLamp p).alc.get p).state = .dark := by
  unfold State.runoutLamp
  rw [if_neg (by simp [h])]
  exact shcExtinguish_dark s p

end Sys2Proof.Machine
end

section
namespace Sys2Proof.Machine

variable {sc : Screen} {c d : Shc} {s t u : State} {p : Proj} {side : Side} {reason : HaltReason} {rp : Option Proj}

/-! ## A halt (R42, R43) -/

theorem holdingOn_none_of_holding_none {st : EntryState} (h : c.holding st = none) (side : Side) :
    c.holdingOn st side = none :=
  findReel_eq_none fun k _ hk hs => absurd hs (Shc.not_of_holding_none (i := k) h hk)

/-- R42 item 4: the lamp of a side that held a tail, and the other lamps. -/
theorem tailLamp_spec (s : State) (sc : Screen) (before : Shc) (side : Side) :
    (before.holdingOn .runningOut side = none → s.tailLamp sc before side = s) ∧
    (∃ es, Acts [.alc (sc.proj side)] sc (s.shc.get sc) es s (s.tailLamp sc before side) ∧
      (before.holdingOn .runningOut side = none → es = [])) ∧
    ((before.holdingOn .runningOut side).isSome = true → (s.shc.get sc).holdingOn .armed side = none →
      ((s.tailLamp sc before side).alc.get (sc.proj side)).state = .dark) := by
  refine ⟨fun h => if_neg (by simp [h]), ?_, fun h ha => ?_⟩
  · unfold State.tailLamp
    split
    · next hside =>
      obtain ⟨es, h⟩ := (Acts.start (l := [.alc (sc.proj side)]) (sc := sc) s).runoutLamp (p := sc.proj side) (by simp)
      exact ⟨_, h, fun hnone => by simp [hnone] at hside⟩
    · exact ⟨[], Acts.start _, fun _ => rfl⟩
  · unfold State.tailLamp
    rw [if_pos h]
    exact runoutLamp_dark (by simpa using ha)

/-- R42 item 3: the record of the SHC after an ARMED entry whose motor command was on is LOADED. -/
def Shc.haltArmed (c before : Shc) : Shc :=
  match before.holding .armed with
  | none => c
  | some (i, r) => if before.motor r.side then c.enter i .loaded else c

theorem Acts.haltArmed {l : List Part} {es : List Instr} (h : Acts l sc d es s t) (before : Shc) :
    Acts l sc (d.haltArmed before) es s (t.haltArmed sc before) := by
  cases ha : before.holding .armed with
  | none => simpa only [State.haltArmed, Shc.haltArmed, ha] using h
  | some x =>
    obtain ⟨i, r⟩ := x
    simp only [State.haltArmed, Shc.haltArmed, ha]
    split
    · exact (h.modShc (·.enter i .loaded)).noteEntry _ _ _ _ _ _
    · exact h

/-- R42 items 1 to 3: the record of the SHC when an ARMED entry has been lowered. -/
def Shc.haltLowered (c : Shc) : Shc := (((c.blackout).setMotor .a false).setMotor .b false).haltArmed c

theorem haltLowered_entry (c : Shc) (k : Nat) :
    (c.haltLowered.entry k).kind = (c.entry k).kind ∧ ((c.haltLowered.entry k).state = (c.entry k).state ∨
      ((c.entry k).state = .armed ∧ (c.haltLowered.entry k).state = .loaded)) := by
  unfold Shc.haltLowered Shc.haltArmed
  split
  · exact ⟨rfl, .inl rfl⟩
  · next i r hi =>
    split
    · unfold Shc.enter
      rw [Shc.modEntry_entry]
      split
      · next hk =>
        obtain ⟨-, -, harmed⟩ := Shc.holding_spec hi
        exact ⟨rfl, .inr ⟨hk.1 ▸ harmed, rfl⟩⟩
      · exact ⟨rfl, .inl rfl⟩
    · exact ⟨rfl, .inl rfl⟩

/-- Lowering an ARMED entry hides no tail and shows none. -/
theorem haltLowered_tail (c : Shc) (side : Side) :
    c.haltLowered.holdingOn .runningOut side = none ↔ c.holdingOn .runningOut side = none := by
  refine ⟨fun h => findReel_eq_none fun k r hk hs => ?_, fun h => findReel_eq_none fun k r hk hs => ?_⟩
  · obtain ⟨hkind, hstate⟩ := haltLowered_entry c k
    have hs' := hstate.resolve_right fun x => by simpa using x.1.symm.trans hs
    simpa using fun e => Shc.not_of_holdingOn_none h (hkind.trans hk) e (hs'.trans hs)
  · obtain ⟨hkind, hstate⟩ := haltLowered_entry c k
    have hs' := hstate.resolve_right fun x => by simpa using x.2.symm.trans hs
    simpa using fun e => Shc.not_of_holdingOn_none h (hkind.symm.trans hk) e (hs'.symm.trans hs)

theorem endTail_kind (e : Entry) : e.endTail.kind = e.kind := by
  unfold Entry.endTail
  split <;> rfl

theorem endActive_kind (e : Entry) : e.endActive.kind = e.kind := by
  unfold Entry.endActive
  split <;> rfl

theorem mapActive_entry (c : Shc) (f : Entry → Entry) (hf : f Entry.blank = Entry.blank) (k : Nat) :
    (c.mapActive f).entry k = f (c.entry k) := by
  simp [Shc.mapActive, Shc.entry, entryAt_map _ _ _ hf]

/-- R42 items 1 to 4: the record of the SHC when the tails have ended. -/
def Shc.haltTails (c : Shc) : Shc := c.haltLowered.mapActive Entry.endTail

theorem haltTails_kind (c : Shc) (k : Nat) : (c.haltTails.entry k).kind = (c.entry k).kind := by
  unfold Shc.haltTails
  rw [mapActive_entry _ _ (by rfl), endTail_kind]
  exact (haltLowered_entry c k).1

/-- Where no entry of a side is ARMED, none is in a halt. -/
theorem haltTails_armed (h : c.holdingOn .armed side = none) : c.haltTails.holdingOn .armed side = none := by
  refine findReel_eq_none fun k r hk hs => ?_
  have hk : (c.entry k).kind = .reel r := (haltTails_kind c k).symm.trans hk
  have hs : (c.haltTails.entry k).state = .armed := hs
  unfold Shc.haltTails at hs
  rw [mapActive_entry _ _ (by rfl)] at hs
  have hlow : (c.haltLowered.entry k).state = .armed := by
    unfold Entry.endTail at hs
    split at hs
    · cases hs
    · exact hs
  have hc := ((haltLowered_entry c k).2.resolve_right fun x => by simpa using x.2.symm.trans hlow).symm.trans hlow
  simpa using fun e => Shc.not_of_holdingOn_none h hk e hc

/-- R42, R43: the record of the SHC after a halt. -/
theorem halted_record (c : Shc) (record : HaltRecord) :
    { ({ c.haltTails.mapActive Entry.endActive with countdown := 0 } : Shc) with
      halt := some record, state := .halted, strikeFrame := none } =
    { c.setBank c.active c.haltEntries with
      douserA := false, douserB := false, muted := true, motorA := false, motorB := false, countdown := 0,
      strikeFrame := none, state := .halted, halt := some record } := by
  have hmap : Entry.endActive ∘ Entry.endTail = fun e =>
      if e.state = .runningOut ∨ e.state = .active then { e with state := .done, short := false } else e := by
    funext e
    cases h : e.state <;> simp [Entry.endActive, Entry.endTail, Entry.become, h]
  unfold Shc.haltEntries Shc.haltTails Shc.haltLowered Shc.haltArmed
  rw [← hmap, ← List.map_map]
  cases ha : c.holding .armed with
  | none => cases hb : c.active <;> simp [Shc.mapActive, Shc.setBank, Shc.bank, Shc.blackout, Shc.setMotor, hb]
  | some x =>
    by_cases hm : c.motor x.2.side = true <;> cases hb : c.active <;>
      simp [Shc.mapActive, Shc.setBank, Shc.bank, Shc.blackout, Shc.setMotor, Shc.enter, Shc.modEntry, hb, hm]

theorem resumePoint_eq (c : Shc) : c.resumePoint = c.haltPoint := by
  unfold Shc.resumePoint Shc.haltPoint
  cases c.state <;> cases c.prep <;> rfl

/-- R42 items 1 to 3: the state when an ARMED entry has been lowered. -/
def State.haltLowered (s : State) (sc : Screen) : State :=
  ((s.modShc sc Shc.blackout).motorsOff sc).haltArmed sc (s.shc.get sc)

theorem haltLowered_acts (s : State) (sc : Screen) :
    Acts [] sc (s.shc.get sc).haltLowered [.motorStop (sc.proj .a), .motorStop (sc.proj .b)] s (s.haltLowered sc) :=
  ((((Acts.start s).modShc Shc.blackout).motorOff .a).motorOff .b).haltArmed _

/-- R42 items 1 to 4: the state of a halt once the lamps of its tails have been looked at. -/
def State.haltTailsLooked (s : State) (sc : Screen) : State := (s.haltLowered sc).haltTails sc

theorem haltTailsLooked_acts (s : State) (sc : Screen) :
    ∃ es, Acts [.alc (sc.proj .a), .alc (sc.proj .b)] sc (s.shc.get sc).haltTails
        ([.motorStop (sc.proj .a), .motorStop (sc.proj .b)] ++ es) s (s.haltTailsLooked sc) ∧
      ((s.shc.get sc).holding .runningOut = none → es = []) ∧
      (∀ side, (s.shc.get sc).holdingOn .runningOut side = none →
        (s.haltTailsLooked sc).alc.get (sc.proj side) = s.alc.get (sc.proj side)) ∧
      (∀ side, ((s.shc.get sc).holdingOn .runningOut side).isSome = true →
        (s.shc.get sc).holdingOn .armed side = none →
        ((s.haltTailsLooked sc).alc.get (sc.proj side)).state = .dark) := by
  have h0 := haltLowered_acts s sc
  have h1 := h0.modShc (·.mapActive Entry.endTail)
  generalize hu : s.haltLowered sc = u at h0 h1
  generalize hv : u.modShc sc (·.mapActive Entry.endTail) = v at h1
  have hlooked : s.haltTailsLooked sc = (v.tailLamp sc (u.shc.get sc) .a).tailLamp sc (u.shc.get sc) .b := by
    rw [← hv, ← hu]
    rfl
  rw [hlooked]
  rw [h0.shc]
  obtain ⟨hskipA, ⟨es1, hactsA, hesA⟩, hdarkA⟩ := tailLamp_spec v sc (s.shc.get sc).haltLowered .a
  obtain ⟨hskipB, ⟨es2, hactsB, hesB⟩, hdarkB⟩ :=
    tailLamp_spec (v.tailLamp sc (s.shc.get sc).haltLowered .a) sc (s.shc.get sc).haltLowered .b
  rw [hactsA.shc] at hactsB hdarkB
  rw [h1.shc] at hactsA hactsB hdarkA hdarkB
  have hne : sc.proj .a ≠ sc.proj .b := by cases sc <;> decide
  have hkeepA := hactsB.keeps (.alc (sc.proj .a)) (by simp [hne])
  have hkeepB := hactsA.keeps (.alc (sc.proj .b)) (by simp [hne.symm])
  simp only [haltLowered_tail, Option.isSome_iff_ne_none, ne_eq] at hskipA hskipB hesA hesB hdarkA hdarkB ⊢
  refine ⟨es1 ++ es2, (h1.mono (by simp)).trans ((hactsA.mono (by simp)).trans (hactsB.mono (by simp))), fun h => ?_,
    fun side h => ?_, fun side h ha => ?_⟩
  · rw [hesA (holdingOn_none_of_holding_none h _), hesB (holdingOn_none_of_holding_none h _)]
    rfl
  · cases side
    · exact Eq.trans hkeepA (by rw [hskipA h, h1.alc])
    · rw [hskipB h, ← h1.alc]; exact hkeepB
  · cases side
    · exact hkeepA ▸ hdarkA h (haltTails_armed ha)
    · exact hdarkB h (haltTails_armed ha)

/-- R42 items 1 to 5: the state of a halt once the interval has ended. -/
def State.haltEnded (s : State) (sc : Screen) : State :=
  (s.haltTailsLooked sc).modShc sc fun x => { x.mapActive Entry.endActive with countdown := 0 }

theorem countAt_congr {i : Nat} (hk : ((t.shc.get sc).entry i).kind = ((s.shc.get sc).entry i).kind)
    (ht : ∀ side, t.trm.get (sc.proj side) = s.trm.get (sc.proj side)) : t.countAt sc i = s.countAt sc i := by
  unfold State.countAt
  rw [hk]
  split
  · rw [ht]
  · rfl

/-- R42, R43: the halt of a screen. -/
theorem haltScreen_haltedBy (s : State) (sc : Screen) (reason : HaltReason) (rp : Option Proj) :
    HaltedBy s (s.haltScreen sc reason rp) sc reason rp := by
  obtain ⟨es, hacts, hnone, hkept, hdark⟩ := haltTailsLooked_acts s sc
  have hended : Acts _ _ _ _ s (s.haltEnded sc) :=
    hacts.modShc fun x => { x.mapActive Entry.endActive with countdown := 0 }
  have hcount : (s.haltEnded sc).countAt sc (s.shc.get sc).current = s.countAt sc (s.shc.get sc).current := by
    refine countAt_congr ?_ fun side => hended.keeps (.trm (sc.proj side)) (by simp)
    rw [hended.shc]
    exact ((congrArg Entry.kind (mapActive_entry _ _ (by rfl) _)).trans (endActive_kind _)).trans (haltTails_kind _ _)
  have htime : (s.haltEnded sc).bck = s.bck := hended.keeps .bck (by simp)
  have hlast : Acts _ _ _ _ s (s.haltScreen sc reason rp) := (((hended.modShc fun x => { x with
    halt := some ⟨reason, rp, (s.shc.get sc).resumePoint, (s.shc.get sc).current,
      (s.haltEnded sc).countAt sc (s.shc.get sc).current, (s.haltEnded sc).bck.time, []⟩
    state := .halted
    strikeFrame := none }).postHalt _).noteScreen _ _ _)
  have hlamp (side : Side) : (s.haltScreen sc reason rp).alc.get (sc.proj side) =
      (s.haltTailsLooked sc).alc.get (sc.proj side) := rfl
  refine ⟨?_, hlast.keeps, hlast.noted, ⟨es, by simpa using hlast.events, hnone⟩, fun side h => (hlamp side).trans
    (hkept side h),
    fun side h ha => (hlamp side) ▸ hdark side h ha⟩
  rw [hlast.shc, halted_record, resumePoint_eq, hcount, htime]

/-! ## Faults that reach a screen (R41, R44) -/

variable {x y : Bool}

theorem fault_of_idle (h : (s.shc.get sc).state = .idle) : s.fault sc reason rp x y = s := by
  simp only [State.fault, h]

theorem fault_of_halted (h : (s.shc.get sc).state = .halted) :
    s.fault sc reason rp x y = if y then s.addFurther sc reason else s := by
  simp only [State.fault, h]

theorem fault_of_running (hi : (s.shc.get sc).state ≠ .idle) (hh : (s.shc.get sc).state ≠ .halted) :
    s.fault sc reason rp x y = if x then s.haltScreen sc reason rp else s := by
  unfold State.fault
  generalize (s.shc.get sc).state = st at hi hh ⊢
  cases st <;> first | rfl | contradiction

theorem addFurther_of_mem {h : HaltRecord} (hh : (s.shc.get sc).halt = some h) (hm : reason ∈ h.further) :
    s.addFurther sc reason = s := by
  simp only [State.addFurther, hh, hm, if_true]

/-- R44: a reason that joins, and its notice. -/
theorem addFurther_of_not_mem {h : HaltRecord} (hs : (s.shc.get sc).state = .halted)
    (hh : (s.shc.get sc).halt = some h) (hm : reason ∉ h.further) :
    s.addFurther sc reason = { s with
      shc := s.shc.set sc { s.shc.get sc with halt := some { h with further := h.further ++ [reason] } }
      cnl := s.cnl.raise ⟨s.bck.time, .screenState sc .halted .halted .furtherReason (s.shc.get sc).current
        ((s.shc.get sc).titleAt (s.shc.get sc).current) (s.countAt sc (s.shc.get sc).current) none (some h.first)
        h.reasonProj (some h.point) (some reason)⟩ } := by
  simp only [State.addFurther, hh, hm, if_false]
  have hcount : (s.modShc sc fun c => { c with halt := some { h with further := h.further ++ [reason] } }).countAt sc
      (s.shc.get sc).current = s.countAt sc (s.shc.get sc).current :=
    countAt_congr (by simp [Shc.entry, Shc.bank]) fun _ => rfl
  unfold State.noteScreen
  conv_lhs => simp only [State.modShc_shc, Quad.get_set_self, hs, hcount, reduceCtorEq, or_self, if_false]
  rfl

theorem addFurther_keeps (s : State) (sc : Screen) (reason : HaltReason) :
    KeepsAllBut s (s.addFurther sc reason) [.cnl, .shc sc] := by
  unfold State.addFurther
  split
  · exact KeepsAllBut.refl _ _
  · split
    · exact KeepsAllBut.refl _ _
    · exact ((keeps_modShc _ _ _).mono (by simp)).trans ((keeps_note _ _).mono (by simp))

/-- R44: a further fault of a halted screen. -/
theorem joins_of_halted {i : Instr} {h : HaltRecord} (hs : (s.shc.get sc).state = .halted)
    (hh : (s.shc.get sc).halt = some h) (he : exec i s = .next ((s.taken i).addFurther sc reason)) :
    ∃ t, exec i s = .next t ∧ KeepsAllBut s t [.events, .cnl, .shc sc] ∧ t.events = s.events.erase i ∧
      (reason ∈ h.further → t.shc.get sc = s.shc.get sc ∧ t.cnl = s.cnl) ∧
      (reason ∉ h.further →
        t.shc.get sc = { s.shc.get sc with halt := some { h with further := h.further ++ [reason] } } ∧
        t.cnl = s.cnl.raise ⟨s.bck.time, .screenState sc .halted .halted .furtherReason (s.shc.get sc).current
          ((s.shc.get sc).titleAt (s.shc.get sc).current) (s.countAt sc (s.shc.get sc).current) none (some h.first)
          h.reasonProj (some h.point) (some reason)⟩) := by
  have htaken : KeepsAllBut s (s.taken i) [.events, .cnl, .shc sc] := (keeps_taken s i).mono (by simp)
  by_cases hm : reason ∈ h.further
  · rw [addFurther_of_mem (s := s.taken i) hh hm] at he
    exact ⟨_, he, htaken, rfl, fun _ => ⟨rfl, rfl⟩, fun hn => absurd hm hn⟩
  · have hadd := addFurther_of_not_mem (s := s.taken i) (reason := reason) hs hh hm
    have hkeep := addFurther_keeps (s.taken i) sc reason
    refine ⟨_, he, htaken.trans (hkeep.mono (by simp)), hkeep .events (by simp), fun hx => absurd hx hm, fun _ => ?_⟩
    rw [hadd]
    exact ⟨Quad.get_set_self _ _ _, rfl⟩

theorem dropIsFault_iff (x : DropReason) : dropIsFault x = true ↔ x = .console ∨ x = .fault ∨ x = .link := by
  cases x <;> simp [dropIsFault]

/-- R44: the projector of a PICTURE resume point. -/
theorem heldSide_eq_some_iff {h : HaltRecord} (hh : c.halt = some h) :
    c.heldSide = some side ↔ h.point = .picture ∧ ∃ i r, c.holding .onScreen = some (i, r) ∧ r.side = side := by
  simp only [Shc.heldSide, hh]
  split
  · next hp => simp [hp]
  · next hp => simp [hp]

theorem exec_shutterDropped (p : Proj) (x : DropReason) (s : State) :
    exec (.shutterDropped p x) s = .next ((s.taken (.shutterDropped p x)).fault p.screen .shutter (some p)
      (dropIsFault x && ((s.trm.get p).motor || (s.shc.get p.screen).pictureSide = some p.side))
      (dropIsFault x && (s.shc.get p.screen).heldSide = some p.side)) := rfl

/-- Settles O30: a fault does nothing in IDLE, joins in HALTED, and halts the screen in every other state. -/
theorem haltFaultsStopTheScreen : Obligations.HaltFaultsStopTheScreen := by
  refine ⟨fun sc p count kind reason s => ?_, fun sc h s hs hh => ?_⟩
  · intro q fault
    refine ⟨fun hi hn => ⟨⟨_, rfl, ?_⟩, ⟨_, rfl, ?_⟩⟩, fun hi hn => ⟨⟨_, rfl, ?_⟩, fun hm => ⟨_, rfl, ?_⟩, fun hm => ?_,
      fun hf hm => ?_, fun hf => ?_⟩, fun hi => ⟨?_, ?_⟩, fun hi => ⟨?_, ?_, ?_⟩⟩
    · rw [fault_of_running (s := s.taken _) hi hn]; exact haltScreen_haltedBy _ _ _ _
    · rw [fault_of_running (s := s.taken _) hi hn]; exact haltScreen_haltedBy _ _ _ _
    · rw [fault_of_running (s := s.taken _) hi hn]; exact haltScreen_haltedBy _ _ _ _
    · rw [fault_of_running (s := s.taken _) hi hn, if_pos (by exact hm)]
      cases kind <;> exact haltScreen_haltedBy _ _ _ _
    · exact congrArg Host.Outcome.next ((fault_of_running (s := s.taken _) hi hn).trans (if_neg (by simpa using hm)))
    · refine ⟨_, exec_shutterDropped p reason s, ?_⟩
      rw [fault_of_running (s := s.taken _) hi hn, if_pos (by simpa [(dropIsFault_iff reason).2 hf] using hm)]
      exact haltScreen_haltedBy _ _ _ _
    · rw [exec_shutterDropped, fault_of_running (s := s.taken _) hi hn, if_neg]
      rw [Bool.and_eq_true, dropIsFault_iff, Bool.or_eq_true, decide_eq_true_eq]
      rintro ⟨hx, hm⟩
      obtain hf | ⟨hm1, hm2⟩ := hf
      · exact hf hx
      · exact hm.elim (by simp [hm1]) hm2
    · exact congrArg Host.Outcome.next (fault_of_idle (s := s.taken _) hi)
    · exact congrArg Host.Outcome.next (fault_of_idle (s := s.taken _) hi)
    · exact congrArg Host.Outcome.next (fault_of_idle (s := s.taken _) hi)
    · exact congrArg Host.Outcome.next (fault_of_idle (s := s.taken _) hi)
    · exact congrArg Host.Outcome.next (fault_of_idle (s := s.taken _) hi)
  · intro c joins
    have further {i : Instr} {reason : HaltReason} {rp : Option Proj} {x y : Bool} {sc' : Screen} (hsc : sc' = sc)
        (hy : y = true) (he : exec i s = .next ((s.taken i).fault sc' reason rp x y)) : joins i reason := by
      subst hsc hy
      exact joins_of_halted hs hh (he.trans (congrArg Host.Outcome.next (fault_of_halted (s := s.taken i) hs)))
    refine ⟨further rfl rfl rfl, further rfl rfl rfl, fun side count => ?_, fun side reason =>
      ⟨fun hf hp ho => ?_, fun hf => ?_⟩⟩
    · have hp := proj_screen sc side
      exact ⟨further hp rfl rfl, further hp rfl rfl, further hp rfl rfl⟩
    · have hheld : c.heldSide = some side := (heldSide_eq_some_iff hh).2 ⟨hp, ho⟩
      refine further (proj_screen sc side) ?_ (exec_shutterDropped (sc.proj side) reason s)
      rw [proj_screen, proj_side, (dropIsFault_iff reason).2 hf]
      simpa using hheld
    · have hnone : dropIsFault reason = true → c.heldSide ≠ some side := by
        rw [dropIsFault_iff, Ne, heldSide_eq_some_iff hh]
        rintro hx ⟨hpic, i, r, ho, hside⟩
        obtain hf | rfl | rfl | rfl | ⟨i', r', ho', hside'⟩ := hf
        · exact hf hpic
        · simp at hx
        · simp at hx
        · simp at hx
        · obtain ⟨-, rfl⟩ := Prod.mk.inj (Option.some.inj (ho.symm.trans ho'))
          exact hside' hside
      rw [exec_shutterDropped, proj_screen, proj_side]
      refine congrArg Host.Outcome.next ((fault_of_halted (s := s.taken _) hs).trans (if_neg ?_))
      rw [Bool.and_eq_true, decide_eq_true_eq]
      exact fun hx => hnone hx.1 hx.2

/-! ## Lamp state changes at the SHC (R31, R32, R41, R44) -/

variable {new old : LampState} {cause : LampCause}

theorem lampFault_of_bad (h : (cause = .arcLost ∨ new = .dark ∨ new = .failed) ∨ cause = .trimOut) :
    lampFault new cause = some (if cause = .trimOut then .trimOut else .lamp) := by
  unfold lampFault
  split
  · rfl
  · next hc => rw [if_pos (h.resolve_right hc)]

theorem lampFault_of_good (h : ¬(cause = .arcLost ∨ new = .dark ∨ new = .failed)) (hc : cause ≠ .trimOut) :
    lampFault new cause = none := by
  unfold lampFault
  rw [if_neg hc, if_neg h]

theorem lampChanged_of_preparing (h : (s.shc.get p.screen).state = .preparing) :
    lampChanged p new cause s =
      if (s.shc.get p.screen).pictureSide = some p.side then
        match lampFault new cause with
        | some reason => s.haltScreen p.screen reason (some p)
        | none => if new = .stable then s.motorOn p else s
      else s := by
  simp only [lampChanged, h] <;> rfl

theorem lampChanged_of_showing_fault (h : (s.shc.get p.screen).state = .showing)
    (hp : (s.shc.get p.screen).pictureSide = some p.side) (hf : lampFault new cause = some reason) :
    lampChanged p new cause s = s.haltScreen p.screen reason (some p) := by
  simp only [lampChanged, h, hf, hp, if_true]

theorem lampChanged_of_halted (h : (s.shc.get p.screen).state = .halted) :
    lampChanged p new cause s =
      match lampFault new cause with
      | some reason => if (s.shc.get p.screen).heldSide = some p.side then s.addFurther p.screen reason else s
      | none => s := by
  simp only [lampChanged, h] <;> rfl

theorem lampChanged_of_quiet (h : (s.shc.get p.screen).state = .idle ∨ (s.shc.get p.screen).state = .ending) :
    lampChanged p new cause s = s := by
  obtain h | h := h <;> simp only [lampChanged, h]

/-- Settles O34: a lamp state change, by the screen's state. -/
theorem lampChangesReachTheScreen : Obligations.LampChangesReachTheScreen := by
  intro p new old cause s x sc c bad reason
  refine ⟨fun hp hst hf => ⟨_, rfl, ?_⟩, fun hst hp hnew ha ht => ?_, fun hst hp hnew ha ht => ?_, fun hst hp => ?_,
    fun h i r hst hh => ⟨fun hpoint ho hside hf => ⟨fun hm => ?_, fun hm => ?_⟩, fun hf => ?_⟩, fun hst => ?_⟩
  · have hfault := lampFault_of_bad hf
    obtain hst | hst := hst
    · rw [lampChanged_of_preparing (s := s.taken x) hst, if_pos (by exact hp), hfault]
      exact haltScreen_haltedBy _ _ _ _
    · rw [lampChanged_of_showing_fault (s := s.taken x) hst hp hfault]
      exact haltScreen_haltedBy _ _ _ _
  · have hgood : lampFault new cause = none := lampFault_of_good (by simp [ha, hnew]) ht
    refine congrArg Host.Outcome.next ((lampChanged_of_preparing (s := s.taken x) hst).trans ?_)
    rw [if_pos (by exact hp), hgood, hnew]
    rfl
  · have hgood : lampFault new cause = none := lampFault_of_good (by obtain rfl | rfl := hnew <;> simp [ha]) ht
    refine congrArg Host.Outcome.next ((lampChanged_of_preparing (s := s.taken x) hst).trans ?_)
    rw [if_pos (by exact hp), hgood]
    obtain rfl | rfl := hnew <;> rfl
  · exact congrArg Host.Outcome.next ((lampChanged_of_preparing (s := s.taken x) hst).trans (if_neg hp))
  · have hheld : c.heldSide = some p.side := (heldSide_eq_some_iff hh).2 ⟨hpoint, i, r, ho, hside⟩
    refine congrArg Host.Outcome.next ((lampChanged_of_halted (s := s.taken x) hst).trans ?_)
    rw [lampFault_of_bad hf]
    exact (if_pos hheld).trans (addFurther_of_mem (s := s.taken x) hh hm)
  · have hheld : c.heldSide = some p.side := (heldSide_eq_some_iff hh).2 ⟨hpoint, i, r, ho, hside⟩
    refine congrArg Host.Outcome.next ((lampChanged_of_halted (s := s.taken x) hst).trans ?_)
    rw [lampFault_of_bad hf]
    exact (if_pos hheld).trans (addFurther_of_not_mem (s := s.taken x) hst hh hm)
  · refine congrArg Host.Outcome.next ((lampChanged_of_halted (s := s.taken x) hst).trans ?_)
    by_cases hbad : bad ∨ cause = .trimOut
    · have hnone : c.heldSide ≠ some p.side := by
        rw [Ne, heldSide_eq_some_iff hh]
        rintro ⟨hpic, i', r', ho', hside'⟩
        obtain hf | ⟨ho, hside⟩ | ⟨hgood, hc⟩ := hf
        · exact hf hpic
        · obtain ⟨-, rfl⟩ := Prod.mk.inj (Option.some.inj (ho.symm.trans ho'))
          exact hside hside'
        · exact hbad.elim hgood hc
      rw [lampFault_of_bad hbad]
      exact if_neg hnone
    · rw [lampFault_of_good (fun hx => hbad (.inl hx)) (fun hx => hbad (.inr hx))]
  · exact congrArg Host.Outcome.next (lampChanged_of_quiet (s := s.taken x) hst)

end Sys2Proof.Machine
end

section
namespace Sys2Proof.Machine

variable {sc : Screen} {c d : Shc} {s t u : State} {p : Proj} {side : Side} {tag screen : Byte} {l : List Part}
  {es : List Instr}

/-! ## Answers of a screen's requests -/

/-- A request's moves read as its owner's answer. -/
theorem Acts.answered {x : Instr} (h : Acts l sc d es (s.taken x) t) (kind tag : Byte) (r : Result) :
    KeepsAllBut s (t.answer kind tag r) (.events :: .cnl :: .shc sc :: l) ∧
      Answered s.cnl (t.answer kind tag r).cnl ⟨kind + 0x80, tag, r, none, []⟩ ∧
      (t.answer kind tag r).shc.get sc = d ∧ (t.answer kind tag r).events = s.events.erase x ++ es := by
  obtain ⟨hkeep, ⟨ns, hns⟩, hev⟩ := h.taken
  exact ⟨hkeep.trans ((keeps_reply _ _ _ _ _ _).mono (by simp)),
    ⟨ns, congrArg (Cnl.fill · ⟨kind + 0x80, tag, r, none, []⟩) hns⟩, h.shc,
    hev⟩

/-! ## ABORT (R49) -/

theorem testSwitch_of_none (h : (s.shc.get sc).switch = none) (now : Nat) : s.testSwitch sc now = s := by
  simp only [State.testSwitch, h]

/-- R49: the record of a screen whose performance has been ended. -/
theorem abort_record (c : Shc) : ((((c.blackout).setMotor .a false).setMotor .b false)).abort =
    { c.setBank c.active ((c.bank c.active).map fun e =>
        match e.state with
        | .armed | .onScreen | .runningOut | .active => { e with state := .loaded, short := false }
        | .done =>
          match e.kind with
          | .interval _ _ => { e with state := .loaded, short := false }
          | _ => { e with short := false }
        | _ => { e with short := false }) with
      state := .idle, douserA := false, douserB := false, muted := true, motorA := false, motorB := false,
      countdown := 0, preStrike := false, halt := none, progress := .none, strikeFrame := none,
      trimHold := none } := by
  have hentry : Entry.abort = fun e =>
        match e.state with
        | .armed | .onScreen | .runningOut | .active => { e with state := .loaded, short := false }
        | .done =>
          match e.kind with
          | .interval _ _ => { e with state := .loaded, short := false }
          | _ => { e with short := false }
        | _ => { e with short := false } := by
    funext e
    obtain ⟨kind, state, short⟩ := e
    cases state <;> cases kind <;> rfl
  rw [← hentry]
  cases hb : c.active <;>
    simp [Shc.abort, Shc.mapActive, Shc.idle, Shc.blackout, Shc.setMotor, Shc.setBank, Shc.bank, hb]

/-- R49: the performance ended, before the test of a pending switch. -/
def State.aborted (s : State) (sc : Screen) : State :=
  let old := (s.shc.get sc).state
  let s := (s.modShc sc Shc.blackout).motorsOff sc
  let s := (s.shcExtinguish (sc.proj .a)).shcExtinguish (sc.proj .b)
  let s := ((s.modShc sc Shc.abort).unserve (sc.proj .a)).unserve (sc.proj .b)
  let s := (s.emit (.haltRelease sc)).postShow sc (s.shc.get sc).setup.fin
  s.noteScreen sc old .abort none

theorem abort_eq (s : State) (sc : Screen) : s.abort sc = (s.aborted sc).testSwitch sc (s.aborted sc).bck.time := rfl

/-- R49 items 6 and 7: the HALT rank released, the finish preset posted, and the notice. -/
theorem Acts.finish (h : Acts l sc d es s t) (old : ScreenState) : Acts l sc d
    (es ++ [.haltRelease sc, .post sc .show_ d.setup.fin]) s
    (((t.emit (.haltRelease sc)).postShow sc (t.shc.get sc).setup.fin).noteScreen sc old .abort none) := by
  rw [h.shc, List.append_cons]
  exact ((h.emit _).postShow _).noteScreen _ _ _

theorem aborted_acts (s : State) (sc : Screen) : ∃ es, Acts [.alc (sc.proj .a), .alc (sc.proj .b)] sc
    ((((s.shc.get sc).blackout).setMotor .a false).setMotor .b false).abort
    ([.motorStop (sc.proj .a), .motorStop (sc.proj .b)] ++ es ++
      [.haltRelease sc, .post sc .show_ (s.shc.get sc).setup.fin]) s (s.aborted sc) := by
  have h0 := ((((Acts.start (l := [.alc (sc.proj .a), .alc (sc.proj .b)]) (sc := sc) s).modShc Shc.blackout).motorOff
    .a).motorOff .b)
  obtain ⟨es1, h1⟩ := h0.extinguish (p := sc.proj .a) (by simp)
  obtain ⟨es2, h2⟩ := h1.extinguish (p := sc.proj .b) (by simp)
  have h3 : Acts _ _ _ _ s (s.aborted sc) := (((h2.modShc Shc.abort).unserve (p := sc.proj .a) (by simp)).unserve
    (p := sc.proj .b) (by simp)).finish (s.shc.get sc).state
  have hsetup : ((((s.shc.get sc).blackout).setMotor .a false).setMotor .b false).abort.setup = (s.shc.get sc).setup :=
    (Shc.Kept.abort _).1
  rw [hsetup] at h3
  exact ⟨es1 ++ es2, by simpa using h3⟩

/-- R49 items 3 and 5: both lamps are DARK and without a service record. -/
theorem aborted_lamps (s : State) (sc : Screen) (side : Side) :
    ((s.aborted sc).alc.get (sc.proj side)).state = .dark ∧ ((s.aborted sc).alc.get (sc.proj side)).service = none := by
  have hne : sc.proj .a ≠ sc.proj .b := by cases sc <;> decide
  generalize hu : (s.modShc sc Shc.blackout).motorsOff sc = u
  have hlamp : (s.aborted sc).alc = (((((u.shcExtinguish (sc.proj .a)).shcExtinguish (sc.proj .b)).modShc sc
      Shc.abort).unserve (sc.proj .a)).unserve (sc.proj .b)).alc := by rw [← hu]; rfl
  have ha : ((u.shcExtinguish (sc.proj .a)).shcExtinguish (sc.proj .b)).alc.get (sc.proj .a) =
      (u.shcExtinguish (sc.proj .a)).alc.get (sc.proj .a) :=
    (putOut_spec _ _ _).2.2 (.alc (sc.proj .a)) (by simp [hne])
  rw [hlamp]
  cases side
  · simp [State.unserve, hne, ha, shcExtinguish_dark]
  · simp [State.unserve, hne.symm, shcExtinguish_dark]

theorem abort_noSuch (h : ¬(1 ≤ screen.toNat ∧ screen.toNat ≤ 4)) (tag : Byte) (s : State) :
    abort tag screen s = s.answer 0x32 tag .noSuch := by
  simp only [abort, screenOf_eq_none_iff.2 h]

theorem abort_of_screen (h : screen.toNat = sc.num) (tag : Byte) (s : State) :
    abort tag screen s =
      if (s.shc.get sc).state = .idle then s.answer 0x32 tag .already else (s.abort sc).answer 0x32 tag .done := by
  simp only [abort, screenOf_eq_some_iff.2 h]

/-- Settles O29: what the end of a performance does to the screen, and that nothing follows without a pending switch. -/
theorem abortEndsThePerformance : Obligations.AbortEndsThePerformance := by
  intro tag screen s x reply
  refine ⟨fun h => congrArg Host.Outcome.next (abort_noSuch h tag _), fun sc hs => ?_⟩
  have run : exec x s = _ := congrArg Host.Outcome.next (abort_of_screen hs tag (s.taken x))
  refine ⟨fun hi => run.trans (congrArg Host.Outcome.next (if_pos hi)), fun hi hsw => ?_⟩
  obtain ⟨es, hacts⟩ := aborted_acts (s.taken x) sc
  have hnone : (((s.taken x).aborted sc).shc.get sc).switch = none := by
    rw [hacts.shc, abort_record]
    simpa using hsw
  have habort : (s.taken x).abort sc = (s.taken x).aborted sc := by
    rw [abort_eq, testSwitch_of_none hnone]
  obtain ⟨hkeep, hans, hrec, hev⟩ := hacts.answered 0x32 tag .done
  refine ⟨_, run.trans (congrArg Host.Outcome.next
    ((if_neg hi).trans (congrArg (State.answer · 0x32 tag .done) habort))),
    hkeep, hans, fun side => aborted_lamps (s.taken x) sc side, ⟨es, ?_⟩, hrec.trans (abort_record _)⟩
  simpa using hev

end Sys2Proof.Machine
end

section
namespace Sys2Proof.Machine

variable {sc : Screen} {c d : Shc} {s t u : State} {p : Proj} {side : Side} {tag screen : Byte} {l : List Part}
  {es : List Instr} {i : Nat} {r : Reel} {k : TrimCase} {x : NotReady} {short : Bool}

/-! ## The test of a candidate (R54, R124) -/

theorem fireLatched_eq_false_iff : s.fireLatched = false ↔ s.bsu.fire = none := by
  simp [State.fireLatched]

/-- R54, items 1 to 4, hold. -/
theorem blocker_eq_none_iff : s.blocker sc i r = none ↔
    s.bsu.fire = none ∧ ((s.shc.get sc).entry i).state = .confirmed ∧
      (s.trm.get (sc.proj r.side)).state = .stopped ∧ (s.alc.get (sc.proj r.side)).state ≠ .failed := by
  unfold State.blocker
  dsimp only
  rw [← fireLatched_eq_false_iff]
  split_ifs <;> simp_all

/-- A programme fault's notice is all that a resolution can leave behind. -/
theorem noteFault_frame (s : State) (sc : Screen) (n : Nat) (res : Resolved) :
    KeepsAllBut s (s.noteFault sc n res) [.cnl] ∧ Noted s.cnl (s.noteFault sc n res).cnl := by
  unfold State.noteFault
  split
  · exact ⟨keeps_note _ _, [_], rfl⟩
  · exact ⟨KeepsAllBut.refl _ _, Noted.refl _⟩

theorem noteFault_of_no_fault {res : Resolved} (h : ∀ n why, res ≠ .fault n why) (n : Nat) :
    s.noteFault sc n res = s := by
  unfold State.noteFault
  split
  · exact absurd rfl (h _ _)
  · rfl

theorem noteFault_shc (s : State) (n : Nat) (res : Resolved) : (s.noteFault sc n res).shc = s.shc := by
  unfold State.noteFault
  split <;> rfl

theorem judge_of_blocked (h : s.blocker sc i r = some x) : s.judge sc i r k = (.fails x, s) := by
  simp only [State.judge, h]

/-- R54 item 5: the trim test of a candidate that meets items 1 to 4. -/
theorem judge_of_free (h : s.blocker sc i r = none) :
    s.judge sc i r k =
      (if s.trimPasses sc i r k then .armable false
        else match (s.shc.get sc).setup.policy with | .run => .armable true | .hold => .fails .trimShort,
        s.noteFault sc (i + 1) ((s.shc.get sc).next i)) := by
  simp only [State.judge, h]
  split
  · rfl
  · cases (s.shc.get sc).setup.policy <;> rfl

theorem judge_frame (s : State) (sc : Screen) (i : Nat) (r : Reel) (k : TrimCase) :
    KeepsAllBut s (s.judge sc i r k).2 [.cnl] ∧ Noted s.cnl (s.judge sc i r k).2.cnl := by
  cases h : s.blocker sc i r with
  | some x => rw [judge_of_blocked h]; exact ⟨KeepsAllBut.refl _ _, Noted.refl _⟩
  | none => rw [judge_of_free h]; exact noteFault_frame _ _ _ _

/-! ## The start test (R20, R21, R29) -/

theorem testStart_of_reel (h : (s.shc.get sc).first = .reel i r) :
    s.testStart sc =
      match s.judge sc i r .coldStart with
      | (.armable short, s) => (.ready i r short, s)
      | (.fails x, s) => (.notReady x, s) := by
  simp only [State.testStart, h, noteFault_of_no_fault (s := s) (sc := sc) (res := .reel i r) (by simp)] <;> rfl

theorem testStart_of_no_reel (h : ∀ i r, (s.shc.get sc).first ≠ .reel i r) :
    s.testStart sc =
      (.notReady (if s.fireLatched then .fireLock else .notThreaded), s.noteFault sc 0 (s.shc.get sc).first) := by
  have hfire : (s.noteFault sc 0 (s.shc.get sc).first).fireLatched = s.fireLatched := by
    unfold State.noteFault
    split <;> rfl
  unfold State.testStart
  dsimp only
  split
  · next hr => exact absurd hr (h _ _)
  · rw [hfire]

/-- The start test gives notices of programme faults alone. -/
theorem testStart_frame (s : State) (sc : Screen) :
    KeepsAllBut s (s.testStart sc).2 [.cnl] ∧ Noted s.cnl (s.testStart sc).2.cnl := by
  by_cases h : ∃ i r, (s.shc.get sc).first = .reel i r
  · obtain ⟨i, r, h⟩ := h
    have hj := judge_frame s sc i r .coldStart
    rw [testStart_of_reel h]
    split
    · next he => rw [he] at hj; exact hj
    · next he => rw [he] at hj; exact hj
  · rw [testStart_of_no_reel (by simpa using h)]
    exact noteFault_frame _ _ _ _

/-- R54: a first entry that can start a performance. -/
theorem testStart_of_startable (h : s.Startable sc i r) :
    s.testStart sc = (.ready i r false, s.noteFault sc (i + 1) ((s.shc.get sc).next i)) := by
  obtain ⟨hfire, hfirst, hentry, htrm, halc, htrim⟩ := h
  rw [testStart_of_reel hfirst, judge_of_free (blocker_eq_none_iff.2 ⟨hfire, hentry, htrm, halc⟩), htrim]
  rfl

/-- R21: a first entry that cannot, and the first reason of it. -/
theorem testStart_of_blocked (h : s.StartBlocked sc x) : (s.testStart sc).1 = .notReady x := by
  have blocked {i : Nat} {r : Reel} (hr : (s.shc.get sc).first = .reel i r) (hb : s.blocker sc i r = some x) :
      (s.testStart sc).1 = .notReady x := by
    rw [testStart_of_reel hr, judge_of_blocked hb]
  obtain ⟨rfl, hfire⟩ | ⟨hfire, ⟨rfl, hno | ⟨i, r, hr, hwhy⟩⟩ | ⟨rfl, i, r, hr, hentry, htrm, halc⟩ |
    ⟨rfl, i, r, hr, hentry, htrm, halc, htrim, hpolicy⟩⟩ := h
  · have hlatched : s.fireLatched = true := hfire
    by_cases hr : ∃ i r, (s.shc.get sc).first = .reel i r
    · obtain ⟨i, r, hr⟩ := hr
      exact blocked hr (by simp [State.blocker, hlatched])
    · rw [testStart_of_no_reel (by simpa using hr), hlatched]
      rfl
  · rw [testStart_of_no_reel hno, fireLatched_eq_false_iff.2 hfire]
    rfl
  · refine blocked hr ?_
    unfold State.blocker
    rw [fireLatched_eq_false_iff.2 hfire]
    obtain hw | hw := hwhy <;> simp [hw]
  · exact blocked hr (by simp [State.blocker, fireLatched_eq_false_iff.2 hfire, hentry, htrm, halc])
  · rw [testStart_of_reel hr, judge_of_free (blocker_eq_none_iff.2 ⟨hfire, hentry, htrm, halc⟩), htrim, hpolicy]
    rfl

/-! ## START's refusals (R21, R29) -/

theorem start_noSuch (h : ¬(1 ≤ screen.toNat ∧ screen.toNat ≤ 4)) (tag : Byte) (s : State) :
    start tag screen s = s.answer 0x30 tag .noSuch := by
  simp only [start, screenOf_eq_none_iff.2 h]

theorem start_of_screen (h : screen.toNat = sc.num) (tag : Byte) (s : State) :
    start tag screen s = startScreen tag sc s := by
  simp only [start, screenOf_eq_some_iff.2 h]

/-- R29: START of an IDLE screen under neither latch. -/
theorem startScreen_of_idle (hi : (s.shc.get sc).state = .idle) (hf : s.bsu.fire = none) (he : s.bsu.estop = none) :
    startScreen tag sc s =
      match s.testStart sc with
      | (.notReady x, s) => s.answer 0x30 tag (.notReady x)
      | (.ready i r short, s) =>
        match s.strikeDark (sc.proj r.side) with
        | (some x, s) => s.answer 0x30 tag (.notReady x)
        | (none, s) => (s.bringUp sc .start i r short .start).answer 0x30 tag .accepted := by
  have hestop : s.estopLatched = false := by simp [State.estopLatched, he]
  simp only [startScreen, hi, ne_eq, not_true_eq_false, if_false, fireLatched_eq_false_iff.2 hf, hestop] <;> rfl

theorem startScreen_of_blocked (hi : (s.shc.get sc).state = .idle) (hf : s.bsu.fire = none) (he : s.bsu.estop = none)
    (h : s.StartBlocked sc x) : startScreen tag sc s = (s.testStart sc).2.answer 0x30 tag (.notReady x) := by
  have hfst := testStart_of_blocked h
  rw [startScreen_of_idle hi hf he]
  generalize s.testStart sc = y at hfst ⊢
  obtain ⟨v, u⟩ := y
  obtain rfl : v = .notReady x := hfst
  rfl

/-! ## RESUME's and CHANGE NOW's refusals (R45, R65, R69) -/

theorem resume_noSuch (h : ¬(1 ≤ screen.toNat ∧ screen.toNat ≤ 4)) (tag : Byte) (s : State) :
    resume tag screen s = s.answer 0x31 tag .noSuch := by
  simp only [resume, screenOf_eq_none_iff.2 h]

theorem resume_of_screen (h : screen.toNat = sc.num) (tag : Byte) (s : State) :
    resume tag screen s = resumeScreen tag sc s := by
  simp only [resume, screenOf_eq_some_iff.2 h]

theorem resumeScreen_of_fire (h : s.bsu.fire.isSome = true) : resumeScreen tag sc s = s.answer 0x31 tag .fireLock :=
  if_pos h

theorem resumeScreen_of_busy (hf : s.bsu.fire = none) (h : (s.shc.get sc).state = .idle ∨
      (s.shc.get sc).state = .preparing ∨ (s.shc.get sc).state = .showing ∨ (s.shc.get sc).state = .ending ∨
      ((s.shc.get sc).state = .interval ∧ 0 < (s.shc.get sc).countdown)) :
    resumeScreen tag sc s = s.answer 0x31 tag .busy := by
  refine (if_neg (by simp [fireLatched_eq_false_iff.2 hf])).trans ?_
  obtain h | h | h | h | ⟨h, hc⟩ := h
  · simp only [h]
  · simp only [h]
  · simp only [h]
  · simp only [h]
  · simp only [h, hc, if_true]

theorem resumeScreen_of_interval (hf : s.bsu.fire = none) (h : (s.shc.get sc).state = .interval)
    (hc : (s.shc.get sc).countdown = 0) : resumeScreen tag sc s = resumeInterval tag sc s := by
  refine (if_neg (by simp [fireLatched_eq_false_iff.2 hf])).trans ?_
  simp only [h, hc, lt_irrefl, if_false]

theorem resumeScreen_of_gap (hf : s.bsu.fire = none) (h : (s.shc.get sc).state = .gap) :
    resumeScreen tag sc s = resumeGap tag sc s := by
  refine (if_neg (by simp [fireLatched_eq_false_iff.2 hf])).trans ?_
  simp only [h]

theorem resumeScreen_of_halted (hf : s.bsu.fire = none) (h : (s.shc.get sc).state = .halted) :
    resumeScreen tag sc s = resumeHalted tag sc s := by
  refine (if_neg (by simp [fireLatched_eq_false_iff.2 hf])).trans ?_
  simp only [h]

theorem changeNow_noSuch (h : ¬(1 ≤ screen.toNat ∧ screen.toNat ≤ 4)) (tag : Byte) (s : State) :
    changeNow tag screen s = s.answer 0x33 tag .noSuch := by
  simp only [changeNow, screenOf_eq_none_iff.2 h]

theorem changeNow_busy (h : screen.toNat = sc.num) (hst : (s.shc.get sc).state ≠ .showing) :
    changeNow tag screen s = s.answer 0x33 tag .busy := by
  simp only [changeNow, screenOf_eq_some_iff.2 h, hst, ne_eq, not_false_eq_true, if_true]

theorem changeNow_notArmed (h : screen.toNat = sc.num) (hst : (s.shc.get sc).state = .showing)
    (ha : (s.shc.get sc).holding .armed = none) :
    changeNow tag screen s = s.answer 0x33 tag (.notReady .notArmed) := by
  simp only [changeNow, screenOf_eq_some_iff.2 h, hst, ne_eq, not_true_eq_false, if_false, ha]
  cases (s.shc.get sc).holding .onScreen <;> rfl

/-- R69: CHANGE NOW with an ARMED entry, by its readiness. -/
theorem changeNow_armed {j : Nat} {q : Reel} (h : screen.toNat = sc.num) (hst : (s.shc.get sc).state = .showing)
    (ho : (s.shc.get sc).holding .onScreen = some (i, r)) (ha : (s.shc.get sc).holding .armed = some (j, q)) :
    changeNow tag screen s =
      match s.unready (sc.proj q.side) with
      | none => (s.changeover (State.openWindows sc cueFuel) sc .console i r j q).answer 0x33 tag .done
      | some x => s.answer 0x33 tag (.notReady x) := by
  simp only [changeNow, screenOf_eq_some_iff.2 h, hst, ne_eq, not_true_eq_false, if_false, ho, ha] <;> rfl

/-- R65: the first condition of readiness that a projector does not meet. -/
theorem unready_eq (s : State) (p : Proj) : s.unready p =
    if (s.trm.get p).state ≠ .atSpeed then some .transport
    else if (s.alc.get p).state ≠ .stable then some .lamp
    else if (s.bsu.shutters.get p).state ≠ .raised then some .shutter
    else if (s.bsu.vetoes.get p).isSome then some .veto
    else none := by
  simp only [State.unready, State.atSpeed, State.lampStable, State.shutterRaised, State.vetoClear,
    decide_eq_false_iff_not, Option.isNone_eq_false_iff, ne_eq]

/-- R65: why a projector is not ready, in the order of the conditions. -/
theorem unready_eq_some (h : (x = .transport ∧ (s.trm.get p).state ≠ .atSpeed) ∨
      (x = .lamp ∧ (s.trm.get p).state = .atSpeed ∧ (s.alc.get p).state ≠ .stable) ∨
      (x = .shutter ∧ (s.trm.get p).state = .atSpeed ∧ (s.alc.get p).state = .stable ∧
        (s.bsu.shutters.get p).state ≠ .raised) ∨
      (x = .veto ∧ (s.trm.get p).state = .atSpeed ∧ (s.alc.get p).state = .stable ∧
        (s.bsu.shutters.get p).state = .raised ∧ (s.bsu.vetoes.get p).isSome = true)) : s.unready p = some x := by
  rw [unready_eq]
  obtain ⟨rfl, h1⟩ | ⟨rfl, h1, h2⟩ | ⟨rfl, h1, h2, h3⟩ | ⟨rfl, h1, h2, h3, h4⟩ := h
  · rw [if_pos h1]
  · rw [if_neg (by simpa using h1), if_pos h2]
  · rw [if_neg (by simpa using h1), if_neg (by simpa using h2), if_pos h3]
  · rw [if_neg (by simpa using h1), if_neg (by simpa using h2), if_neg (by simpa using h3), if_pos h4]

theorem unready_eq_none (h1 : (s.trm.get p).state = .atSpeed) (h2 : (s.alc.get p).state = .stable)
    (h3 : (s.bsu.shutters.get p).state = .raised) (h4 : s.bsu.vetoes.get p = none) : s.unready p = none := by
  simp [unready_eq, h1, h2, h3, h4]

/-- Settles O27: each check of the three requests, in its order. -/
theorem showRequestsAreRefusedInOrder : Obligations.ShowRequestsAreRefusedInOrder := by
  refine ⟨fun tag screen sc s => ?_, fun tag screen s => ?_, fun tag screen s => ?_⟩
  · intro x c hs hi hf he reason h
    have hrun : exec x s = .next ((((s.taken x).testStart sc).2).answer 0x30 tag (.notReady reason)) :=
      congrArg Host.Outcome.next ((start_of_screen hs tag _).trans (startScreen_of_blocked (s := s.taken x) hi hf he h))
    obtain ⟨hkeep, ns, hns⟩ := testStart_frame (s.taken x) sc
    refine ⟨_, hrun, ?_, hkeep .events (by simp), ns, congrArg (Cnl.fill · _) hns⟩
    exact (((keeps_taken s x).mono (by simp)).trans (hkeep.mono (by simp))).trans
      ((keeps_reply _ _ _ _ _ _).mono (by simp))
  · intro x reply
    refine ⟨fun h => congrArg Host.Outcome.next (resume_noSuch h tag _), fun sc hs => ?_⟩
    have run : exec x s = _ := congrArg Host.Outcome.next (resume_of_screen hs tag (s.taken x))
    refine ⟨fun hf => run.trans (congrArg Host.Outcome.next (resumeScreen_of_fire (s := s.taken x) hf)),
      fun hf hb => run.trans (congrArg Host.Outcome.next (resumeScreen_of_busy (s := s.taken x) hf hb)),
      fun hf he hst => run.trans (congrArg Host.Outcome.next ?_)⟩
    obtain h | h | ⟨h, hc⟩ := hst
    · exact (resumeScreen_of_gap (s := s.taken x) hf h).trans (if_pos he)
    · exact (resumeScreen_of_halted (s := s.taken x) hf h).trans (if_pos he)
    · exact (resumeScreen_of_interval (s := s.taken x) hf h hc).trans (if_pos he)
  · intro x reply
    refine ⟨fun h => congrArg Host.Outcome.next (changeNow_noSuch h tag _), fun sc hs => ?_⟩
    refine ⟨fun hst => congrArg Host.Outcome.next (changeNow_busy (s := s.taken x) hs hst),
      fun hst ha => congrArg Host.Outcome.next (changeNow_notArmed (s := s.taken x) hs hst ha),
      fun i j r q hst ho ha => ?_⟩
    have run (why : NotReady) (hw : (s.taken x).unready (sc.proj q.side) = some why) :
        exec x s = .next (reply (.notReady why)) := by
      refine congrArg Host.Outcome.next ((changeNow_armed (s := s.taken x) hs hst ho ha).trans ?_)
      rw [hw]
      rfl
    exact ⟨fun h1 => run _ (unready_eq_some (s := s.taken x) (.inl ⟨rfl, h1⟩)),
      fun h1 h2 => run _ (unready_eq_some (s := s.taken x) (.inr (.inl ⟨rfl, h1, h2⟩))),
      fun h1 h2 h3 => run _ (unready_eq_some (s := s.taken x) (.inr (.inr (.inl ⟨rfl, h1, h2, h3⟩)))),
      fun h1 h2 h3 h4 => run _ (unready_eq_some (s := s.taken x) (.inr (.inr (.inr ⟨rfl, h1, h2, h3, h4⟩))))⟩

end Sys2Proof.Machine
end

section
namespace Sys2Proof.Machine

variable {sc : Screen} {c d : Shc} {s t u : State} {p : Proj} {side : Side} {tag screen : Byte} {l : List Part}
  {es : List Instr} {i : Nat} {r : Reel} {kind : PrepKind} {short : Bool} {cause : ScreenCause}

/-! ## A reel brought up (R30, R31) -/

/-- R30 items 1 to 4: the record of a screen whose reel of entry `i` is brought up. -/
def Shc.broughtUp (c : Shc) (kind : PrepKind) (i : Nat) : Shc :=
  { c with
    current := i, prep := kind, state := .preparing, douserA := false, douserB := false, muted := true,
    schedule := c.schedule.map Schedule.clearMisses }

/-- R30 items 5 and 6: the events that a bringing up raises before its lamp step. -/
def Shc.upEvents (c : Shc) (sc : Screen) (kind : PrepKind) : List Instr :=
  (if kind = .start then [.post sc .show_ c.setup.preShow] else []) ++ if c.state = .gap then [.haltRelease sc] else []

/-- R30: the reel of entry `i` brought up, before its lamp step. -/
def State.broughtUp (s : State) (sc : Screen) (kind : PrepKind) (i : Nat) (r : Reel) (short : Bool)
    (cause : ScreenCause) : State :=
  let old := (s.shc.get sc).state
  let s := if kind = .resume ∨ ((s.shc.get sc).entry i).state = .armed then s else s.arm sc i r short
  let s := (s.modShc sc fun c => { c with current := i, prep := kind, state := .preparing }).noteScreen sc old
    cause none
  let s := s.modShc sc fun c => { c.blackout with schedule := c.schedule.map Schedule.clearMisses }
  let s := if kind = .start then s.postShow sc (s.shc.get sc).setup.preShow else s
  if old = .gap then s.emit (.haltRelease sc) else s

theorem bringUp_eq (s : State) (sc : Screen) (kind : PrepKind) (i : Nat) (r : Reel) (short : Bool)
    (cause : ScreenCause) :
    s.bringUp sc kind i r short cause = (s.broughtUp sc kind i r short cause).lampStep (sc.proj r.side) := rfl

theorem lampStep_of_stable (h : (s.alc.get p).state = .stable) : s.lampStep p = s.motorOn p := by
  simp only [State.lampStep, h]

/-- R31: a lamp that is on its way is waited for. -/
theorem lampStep_of_lit (h : (s.alc.get p).state.lit = true) (hs : (s.alc.get p).state ≠ .stable) :
    s.lampStep p = s := by
  unfold State.lampStep
  generalize (s.alc.get p).state = x at h hs ⊢
  cases x <;> first | rfl | contradiction

/-- R30 items 2 to 6, for a reel that is ARMED or needs no arming. -/
theorem Acts.risen (h : Acts l sc d es s t) (old : ScreenState) (cause : ScreenCause) (kind : PrepKind) (i : Nat)
    (hold : old = d.state) :
    Acts l sc (d.broughtUp kind i) (es ++ d.upEvents sc kind) s
      (let u := (t.modShc sc fun c => { c with current := i, prep := kind, state := .preparing }).noteScreen sc old
        cause none
       let u := u.modShc sc fun c => { c.blackout with schedule := c.schedule.map Schedule.clearMisses }
       let u := if kind = .start then u.postShow sc (u.shc.get sc).setup.preShow else u
       if old = .gap then u.emit (.haltRelease sc) else u) := by
  have h1 := ((h.modShc fun c => { c with current := i, prep := kind, state := .preparing }).noteScreen old cause
    none).modShc fun c => { c.blackout with schedule := c.schedule.map Schedule.clearMisses }
  subst hold
  dsimp only
  rw [h1.shc]
  unfold Shc.upEvents
  split <;> split
  · exact List.append_assoc es _ _ ▸ (h1.postShow d.setup.preShow).emit _
  · exact (List.append_nil [_]).symm ▸ h1.postShow d.setup.preShow
  · exact h1.emit _
  · exact (List.append_nil es).symm ▸ h1

/-- R30, for a reel that is ARMED, or of kind RESUME. -/
theorem Acts.broughtUp (h : Acts l sc d es s t) (hk : kind = .resume ∨ (d.entry i).state = .armed) (r : Reel)
    (short : Bool) (cause : ScreenCause) :
    Acts l sc (d.broughtUp kind i) (es ++ d.upEvents sc kind) s (t.broughtUp sc kind i r short cause) := by
  unfold State.broughtUp
  dsimp only
  rw [if_pos (show kind = .resume ∨ ((t.shc.get sc).entry i).state = .armed by rwa [h.shc])]
  exact h.risen (t.shc.get sc).state cause kind i (by rw [h.shc])

/-- R30, for a reel that is armed first. -/
theorem Acts.broughtUpArmed (h : Acts l sc d es s t) (hk : kind ≠ .resume) (ha : (d.entry i).state ≠ .armed)
    (hp : .trm (sc.proj r.side) ∈ l) (short : Bool) (cause : ScreenCause) :
    Acts l sc ((d.modEntry d.active i (·.arm short)).broughtUp kind i) (es ++ d.upEvents sc kind) s
      (t.broughtUp sc kind i r short cause) := by
  have harm := (h.arm i r short hp).risen d.state cause kind i (by simp)
  have hev : (d.modEntry d.active i (·.arm short)).upEvents sc kind = d.upEvents sc kind := by
    simp [Shc.upEvents, Shc.modEntry]
  rw [hev] at harm
  unfold State.broughtUp
  dsimp only
  rw [h.shc, if_neg (show ¬(kind = .resume ∨ (d.entry i).state = .armed) from fun x => x.elim hk ha)]
  exact harm

/-- A bringing up touches no lamp before its lamp step. -/
theorem broughtUp_alc (s : State) : (s.broughtUp sc kind i r short cause).alc = s.alc := by
  unfold State.broughtUp
  dsimp only
  split <;> split <;> split <;> rfl

theorem broughtUp_trm (hk : kind ≠ .resume) (ha : ((s.shc.get sc).entry i).state ≠ .armed) :
    (s.broughtUp sc kind i r short cause).trm =
      s.trm.set (sc.proj r.side) ((s.trm.get (sc.proj r.side)).armFor r.lp) := by
  unfold State.broughtUp
  dsimp only
  rw [if_neg (show ¬(kind = .resume ∨ ((s.shc.get sc).entry i).state = .armed) from fun x => x.elim hk ha)]
  split <;> split <;> rfl

/-- R31: the lamp step of a reel whose lamp is lit. -/
theorem Acts.lampStepped (h : Acts l sc d es s t) (hl : (t.alc.get (sc.proj side)).state.lit = true) :
    ((t.alc.get (sc.proj side)).state = .stable →
      Acts l sc (d.setMotor side true) (es ++ [.motorOnCommand (sc.proj side)]) s (t.lampStep (sc.proj side))) ∧
    ((t.alc.get (sc.proj side)).state ≠ .stable → Acts l sc d es s (t.lampStep (sc.proj side))) ∧
    (t.lampStep (sc.proj side)).trm = t.trm ∧ (t.lampStep (sc.proj side)).alc = t.alc := by
  by_cases hs : (t.alc.get (sc.proj side)).state = .stable
  · rw [lampStep_of_stable hs]
    exact ⟨fun _ => h.motorOn side, fun hn => absurd hs hn, rfl, rfl⟩
  · rw [lampStep_of_lit hl hs]
    exact ⟨fun hn => absurd hn hs, fun _ => h, rfl, rfl⟩

/-! ## START (R29) -/

theorem strikeDark_of_lit (h : (s.alc.get p).state ≠ .dark) : s.strikeDark p = (none, s) := if_neg h

/-- R99: a strike that nothing stands against. -/
theorem strikeRefusal_eq_none (hl : (s.alc.get p).state.lit = false) (hr : (s.alc.get p).remaining ≠ 0)
    (hx : s.bsu.proven = true) (hf : s.bsu.fire = none) : s.strikeRefusal p = none := by
  have hrem : (s.alc.get p).trim - (s.alc.get p).consumed ≠ 0 := hr
  have hlit : ¬((s.alc.get p).state = .striking ∨ (s.alc.get p).state = .warming ∨ (s.alc.get p).state = .stable) := by
    rw [← lit_iff, hl]
    simp
  rw [strikeRefusal_eq]
  simp [hlit, hrem, hx, hf]

theorem strikeRefusal_of_no_trim (hl : (s.alc.get p).state.lit = false) (hr : (s.alc.get p).remaining = 0) :
    s.strikeRefusal p = some (.notReady .noTrim) := by
  simp [State.strikeRefusal, hl, hr]

theorem strikeRefusal_of_unproven (hl : (s.alc.get p).state.lit = false) (hr : (s.alc.get p).remaining ≠ 0)
    (hx : s.bsu.proven = false) : s.strikeRefusal p = some (.notReady .exhaust) := by
  simp [State.strikeRefusal, hl, hr, hx]

theorem strikeDark_of_refused {y : NotReady} (h : (s.alc.get p).state = .dark)
    (hr : s.strikeRefusal p = some (.notReady y)) : s.strikeDark p = (some y, s) := by
  unfold State.strikeDark
  rw [if_pos h, askStrike_of_refusal hr]
  rfl

theorem strikeDark_of_dark (h : (s.alc.get p).state = .dark) (hr : (s.alc.get p).remaining ≠ 0)
    (hx : s.bsu.proven = true) (hf : s.bsu.fire = none) : s.strikeDark p = (none, s.beginStrike p .struck) := by
  unfold State.strikeDark
  rw [if_pos h, askStrike_of_none (strikeRefusal_eq_none (by rw [h]; rfl) hr hx hf)]

theorem beginStrike_striking (s : State) (p : Proj) (x : LampCause) :
    ((s.beginStrike p x).alc.get p).state = .striking := by
  rw [(beginStrike_spec s p x).1]
  simp [Alc.beginAttempt, Alc.enter]

/-- R29: a START that is accepted, its lamp looked at. -/
theorem startScreen_of_startable (hi : (s.shc.get sc).state = .idle) (he : s.bsu.estop = none)
    (h : s.Startable sc i r)
    (hd : ((s.noteFault sc (i + 1) ((s.shc.get sc).next i)).strikeDark (sc.proj r.side)) = (none, u)) :
    startScreen tag sc s = (u.bringUp sc .start i r false .start).answer 0x30 tag .accepted := by
  rw [startScreen_of_idle hi h.1 he, testStart_of_startable h]
  dsimp only
  rw [hd]

/-- R29: the lamps and the transports as a noted fault leaves them. -/
theorem noteFault_machines (s : State) (n : Nat) (res : Resolved) :
    (s.noteFault sc n res).alc = s.alc ∧ (s.noteFault sc n res).trm = s.trm ∧ (s.noteFault sc n res).bsu = s.bsu := by
  unfold State.noteFault
  split <;> exact ⟨rfl, rfl, rfl⟩

/-- R30, R31: a reel armed and brought up, its lamp lit. -/
theorem Acts.bringUpArmed (h : Acts l sc d es s t) (hk : kind ≠ .resume) (ha : (d.entry i).state ≠ .armed)
    (hp : .trm (sc.proj r.side) ∈ l) (short : Bool) (cause : ScreenCause)
    (hl : (t.alc.get (sc.proj r.side)).state.lit = true) :
    ((t.alc.get (sc.proj r.side)).state = .stable →
      Acts l sc (((d.modEntry d.active i (·.arm short)).broughtUp kind i).setMotor r.side true)
        (es ++ d.upEvents sc kind ++ [.motorOnCommand (sc.proj r.side)]) s (t.bringUp sc kind i r short cause)) ∧
    ((t.alc.get (sc.proj r.side)).state ≠ .stable →
      Acts l sc ((d.modEntry d.active i (·.arm short)).broughtUp kind i) (es ++ d.upEvents sc kind) s
        (t.bringUp sc kind i r short cause)) ∧
    (t.bringUp sc kind i r short cause).trm.get (sc.proj r.side) = (t.trm.get (sc.proj r.side)).armFor r.lp ∧
    (t.bringUp sc kind i r short cause).alc = t.alc := by
  have hup := h.broughtUpArmed hk ha hp short cause
  have halc := broughtUp_alc (sc := sc) (i := i) (r := r) (kind := kind) (short := short) (cause := cause) t
  have htrm := broughtUp_trm (sc := sc) (i := i) (r := r) (short := short) (cause := cause) (s := t) hk (by rwa [h.shc])
  rw [← halc] at hl ⊢
  rw [bringUp_eq]
  obtain ⟨hon, hoff, hkt, hka⟩ := hup.lampStepped hl
  exact ⟨hon, hoff, by rw [hkt, htrm]; simp, hka⟩

/-- R30, R31: a reel that needs no arming brought up, its lamp lit. -/
theorem Acts.bringUp (h : Acts l sc d es s t) (hk : kind = .resume ∨ (d.entry i).state = .armed) (short : Bool)
    (cause : ScreenCause) (hl : (t.alc.get (sc.proj r.side)).state.lit = true) :
    ((t.alc.get (sc.proj r.side)).state = .stable →
      Acts l sc ((d.broughtUp kind i).setMotor r.side true)
        (es ++ d.upEvents sc kind ++ [.motorOnCommand (sc.proj r.side)]) s (t.bringUp sc kind i r short cause)) ∧
    ((t.alc.get (sc.proj r.side)).state ≠ .stable →
      Acts l sc (d.broughtUp kind i) (es ++ d.upEvents sc kind) s (t.bringUp sc kind i r short cause)) ∧
    (t.bringUp sc kind i r short cause).alc = t.alc := by
  have halc := broughtUp_alc (sc := sc) (i := i) (r := r) (kind := kind) (short := short) (cause := cause) t
  rw [← halc] at hl ⊢
  rw [bringUp_eq]
  obtain ⟨hon, hoff, -, hka⟩ := (h.broughtUp hk r short cause).lampStepped hl
  exact ⟨hon, hoff, hka⟩

/-- Settles O26: START's checks, and the first reel armed and brought up with its lamp lit or struck. -/
theorem startBringsUpTheFirstReel : Obligations.StartBringsUpTheFirstReel := by
  intro tag screen s x reply
  refine ⟨fun h => congrArg Host.Outcome.next (start_noSuch h tag _), fun sc hs => ?_⟩
  intro c
  have run : exec x s = _ := congrArg Host.Outcome.next (start_of_screen hs tag (s.taken x))
  refine ⟨fun hi => run.trans (congrArg Host.Outcome.next (if_pos hi)),
    fun hi hf => run.trans (congrArg Host.Outcome.next ((if_neg (not_not_intro hi)).trans (if_pos hf))),
    fun hi hf he => run.trans (congrArg Host.Outcome.next ((if_neg (not_not_intro hi)).trans
      ((if_neg (by simp [(fireLatched_eq_false_iff (s := s.taken x)).2 hf])).trans (if_pos he)))),
    fun i r hi hf he hfirst hentry htrm htrim => ?_⟩
  intro p lamp armed
  have hrec0 : (c.modEntry c.active i (·.arm false)).broughtUp .start i = armed := by
    have hsched : (c.modEntry c.active i (·.arm false)).schedule = c.schedule := Shc.setBank_schedule _ _ _
    simp only [armed, Shc.broughtUp, hsched] <;> rfl
  generalize hu : (s.taken x).noteFault sc (i + 1) (c.next i) = u
  obtain ⟨halc, htr, hbsu⟩ := noteFault_machines (sc := sc) (s.taken x) (i + 1) (c.next i)
  rw [hu] at halc htr hbsu
  have hacts (l : List Part) : Acts l sc c [] (s.taken x) u := hu ▸ (Acts.start (s.taken x)).noteFault (i + 1)
    (c.next i)
  have hna : (c.entry i).state ≠ .armed := by simp [hentry]
  have started (v : State) (hl : lamp ≠ .failed) (hd : u.strikeDark p = (none, v)) :
      exec x s = .next ((v.bringUp sc .start i r false .start).answer 0x30 tag .accepted) :=
    run.trans (congrArg Host.Outcome.next (startScreen_of_startable (s := s.taken x) hi he
      ⟨hf, hfirst, hentry, htrm, hl, htrim⟩ (by rw [← hd, ← hu]; rfl)))
  refine ⟨fun hlit => ?_, fun hdark hrem hproven => ?_⟩
  · have hstate : (u.alc.get p).state = lamp := by rw [halc]; rfl
    obtain ⟨hon, hoff, hkt, -⟩ := (hacts [.trm p]).bringUpArmed (kind := .start) (by simp) hna (by simp [p]) false
      .start (hstate ▸ hlit)
    have hnot : lamp ≠ .dark ∧ lamp ≠ .failed := by constructor <;> rintro h <;> simp [h, LampState.lit] at hlit
    refine ⟨_, started u hnot.2 (strikeDark_of_lit (by rw [hstate]; exact hnot.1)), ?_⟩
    rw [htr] at hkt
    by_cases hst : lamp = .stable
    · obtain ⟨hkeep, hans, hrec, hev⟩ := (hon (hstate.trans hst)).answered 0x30 tag .accepted
      exact ⟨hkeep, hkt, hans, fun _ => ⟨hrec.trans (congrArg (Shc.setMotor · r.side true) hrec0),
        by simpa [Shc.upEvents, hi, c] using hev⟩, fun hn => absurd hst hn⟩
    · obtain ⟨hkeep, hans, hrec, hev⟩ := (hoff (hstate.trans_ne hst)).answered 0x30 tag .accepted
      exact ⟨hkeep, hkt, hans, fun hn => absurd hn hst, fun _ =>
        ⟨hrec.trans hrec0, by simpa [Shc.upEvents, hi, c] using hev⟩⟩
  · have hstate : (u.alc.get p).state = .dark := by rw [halc]; exact hdark
    have hstrike := (hacts [.trm p, .alc p]).strike (p := p) (by simp) .struck
    have hlit := beginStrike_striking u p .struck
    obtain ⟨-, hoff, hkt, hka⟩ := hstrike.bringUpArmed (kind := .start) (r := r) (by simp) hna (by simp [p]) false
      .start
      (by rw [hlit]; rfl)
    obtain ⟨hkeep, hans, hrec, hev⟩ := (hoff (by rw [hlit]; simp)).answered 0x30 tag .accepted
    refine ⟨_, started _ (by simp [hdark]) (strikeDark_of_dark hstate (by rw [halc]; exact hrem)
      (by rw [hbsu]; exact hproven) (by rw [hbsu]; exact hf)), hkeep, hrec.trans hrec0, ?_, ?_, hans, ?_⟩
    · have hsame := (beginStrike_spec u p .struck).2.2 (.trm p) (by simp)
      exact hkt.trans (by rw [hsame, htr]; rfl)
    · exact (congrArg (fun a => (a.get p).state) hka).trans hlit
    · rw [hstate] at hev
      simpa [Shc.upEvents, hi, c] using hev

end Sys2Proof.Machine
end

section
namespace Sys2Proof.Machine

variable {sc : Screen} {c d e : Shc} {s t u : State} {p : Proj} {side : Side} {tag screen : Byte} {l : List Part}
  {es : List Instr} {i j w q : Nat} {r : Reel} {kind : PrepKind} {short : Bool} {cause : ScreenCause}

/-! ## Where a screen goes on (R36 to R40) -/

theorem Moves.mem_events {x : Instr} (h : Moves sc s t) (hx : x ∈ s.events) : x ∈ t.events := by
  obtain ⟨es, he⟩ := h.events
  exact he ▸ List.mem_append_left _ hx

theorem length_of_kind_ne_empty (h : (c.entry i).kind ≠ .empty) : i < (c.bank c.active).length := by
  by_contra hn
  exact h (by simp [Shc.entry, entryAt_of_ge (Nat.le_of_not_lt hn), Entry.blank])

theorem kind_of_next_interval (h : c.next i = .interval j w q) : (c.entry j).kind = .interval w q :=
  kind_of_nextAfter.2 _ _ _ h

theorem kind_of_next_reel (h : c.next i = .reel j r) : (c.entry j).kind = .reel r := kind_of_nextAfter.1 _ _ h

theorem enter_entry (k : Nat) (st : EntryState) : (c.enter i st).entry k =
    if i = k ∧ k < (c.bank c.active).length then (c.entry k).become st else c.entry k :=
  Shc.modEntry_entry c _ k

theorem enter_entry_self (h : i < (c.bank c.active).length) (st : EntryState) :
    (c.enter i st).entry i = (c.entry i).become st := by
  rw [enter_entry, if_pos ⟨rfl, h⟩]

theorem enter_entry_of_ne {k : Nat} (h : i ≠ k) (st : EntryState) : (c.enter i st).entry k = c.entry k := by
  rw [enter_entry, if_neg (by simp [h])]

theorem enter_kind (k : Nat) (st : EntryState) : ((c.enter i st).entry k).kind = (c.entry k).kind := by
  rw [enter_entry]
  split <;> rfl

/-- `d` is the record `c` but for armings and standings down: the entries that were neither CONFIRMED nor ARMED are
as they were. -/
structure Shc.Stirs (c d : Shc) : Prop where
  record : d = { c with
    bank0 := d.bank0, bank1 := d.bank1, strikeFrame := d.strikeFrame, trimHold := d.trimHold,
    preStrike := d.preStrike, motorA := d.motorA, motorB := d.motorB }
  entry : ∀ k, (c.entry k).state ≠ .confirmed → (c.entry k).state ≠ .armed → d.entry k = c.entry k

theorem Shc.Arms.stirs (h : c.Arms d) : c.Stirs d := ⟨h.record, fun k hk _ => (h.entry k).eq hk⟩

namespace Shc.Stirs

theorem trans (h : c.Stirs d) (k : d.Stirs e) : c.Stirs e := by
  refine ⟨?_, fun n h1 h2 => ?_⟩
  · rw [k.record, h.record]
  · have hn := h.entry n h1 h2
    rw [k.entry n (hn ▸ h1) (hn ▸ h2), hn]

theorem state (h : c.Stirs d) : d.state = c.state := by rw [h.record]
theorem current (h : c.Stirs d) : d.current = c.current := by rw [h.record]
theorem muted (h : c.Stirs d) : d.muted = c.muted := by rw [h.record]
theorem halt (h : c.Stirs d) : d.halt = c.halt := by rw [h.record]
theorem douser (h : c.Stirs d) (side : Side) : d.douser side = c.douser side := by rw [h.record]; cases side <;> rfl

end Shc.Stirs

/-- R36: the record of a screen that enters the interval `j`. -/
def Shc.inInterval (c : Shc) (j w : Nat) : Shc :=
  { c.enter j .active with current := j, state := .interval, preStrike := false, countdown := w }

theorem inInterval_entry (h : (c.entry j).kind = .interval w q) : ((c.inInterval j w).entry j).state = .active :=
  congrArg Entry.state (enter_entry_self (length_of_kind_ne_empty (by simp [h])) .active)

/-- R36, R39: an interval is entered. -/
theorem enterInterval_spec (s : State) (sc : Screen) (j w q : Nat) (cause : ScreenCause) :
    ((s.shc.get sc).inInterval j w).Arms ((s.enterInterval sc j w q cause).shc.get sc) ∧
      (∀ p, ((s.enterInterval sc j w q cause).alc.get p).service = (s.alc.get p).service) ∧
      .post sc .show_ q ∈ (s.enterInterval sc j w q cause).events := by
  have harms : Arms sc ((s.modShc sc (·.inInterval j w)).postShow sc q) (s.enterInterval sc j w q cause) :=
    ((Arms.refl _).evaluate.of_shc (u := (((s.modShc sc (·.inInterval j w)).postShow sc q).evaluate sc).noteScreen sc
      (s.shc.get sc).state cause none)).intervalPreStrike
  have hmoves : Moves sc ((s.modShc sc (·.inInterval j w)).postShow sc q) (s.enterInterval sc j w q cause) :=
    ((Moves.refl _).evaluate.noteScreen _ _ _).intervalPreStrike
  refine ⟨?_, harms.service, hmoves.mem_events (by simp [State.postShow])⟩
  have hrec := harms.record
  simpa [State.postShow] using hrec

/-- R36: the screen in the interval it has entered. -/
theorem enterInterval_state (hk : ((s.shc.get sc).entry j).kind = .interval w q) (cause : ScreenCause) :
    ((s.enterInterval sc j w q cause).shc.get sc).state = .interval ∧
      ((s.enterInterval sc j w q cause).shc.get sc).current = j ∧
      ((s.enterInterval sc j w q cause).shc.get sc).countdown = w ∧
      (((s.enterInterval sc j w q cause).shc.get sc).entry j).state = .active ∧
      .post sc .show_ q ∈ (s.enterInterval sc j w q cause).events := by
  obtain ⟨harms, -, hpost⟩ := enterInterval_spec s sc j w q cause
  have hactive := inInterval_entry hk
  refine ⟨harms.state, harms.current, harms.countdown, ?_, hpost⟩
  rw [(harms.entry j).eq (by simp [hactive]), hactive]

/-- R37: the runout of the last reel is awaited. -/
theorem enterEnding_eq (s : State) (sc : Screen) (cause : ScreenCause) :
    Acts [] sc { s.shc.get sc with state := .ending } [.post sc .show_ (s.shc.get sc).setup.fin] s
      (s.enterEnding sc cause) :=
  (((Acts.start s).postShow _).modShc fun c => { c with state := .ending }).noteScreen _ _ _

theorem setMotor_entry (c : Shc) (side : Side) (on : Bool) (k : Nat) : (c.setMotor side on).entry k = c.entry k := by
  simp [Shc.entry]

theorem setBank_record (c : Shc) (b : BankId) (es : List Entry) :
    c.setBank b es = { c with bank0 := (c.setBank b es).bank0, bank1 := (c.setBank b es).bank1 } := by
  cases b <;> rfl

theorem enter_record (c : Shc) (i : Nat) (st : EntryState) :
    c.enter i st = { c with bank0 := (c.enter i st).bank0, bank1 := (c.enter i st).bank1 } := setBank_record c _ _

/-- An ARMED entry is stood down, its motor off. -/
theorem stands_down (h : (c.entry i).state = .armed) (side : Side) :
    c.Stirs { (c.setMotor side false).enter i .loaded with strikeFrame := none } := by
  refine ⟨?_, fun k _ hk => ?_⟩
  · rw [enter_record]
    cases side <;> rfl
  · have hne : i ≠ k := by rintro rfl; exact hk h
    exact (enter_entry_of_ne hne .loaded).trans (setMotor_entry c side false k)

/-- R38: an ARMED reel whose motor is on is stood down when the screen enters GAP. -/
theorem gapArmed_spec (s : State) (sc : Screen) :
    (s.shc.get sc).Stirs ((s.gapArmed sc).shc.get sc) ∧
      (∀ p, ((s.gapArmed sc).alc.get p).service = (s.alc.get p).service) := by
  unfold State.gapArmed
  dsimp only
  split
  · exact ⟨(Shc.Arms.refl _).stirs, fun _ => rfl⟩
  · next i r ha =>
    split
    · have hacts := ((Acts.start (l := []) (sc := sc) s).motorOff r.side).modShc
        fun c => { c.enter i .loaded with strikeFrame := none }
      refine ⟨?_, fun _ => rfl⟩
      rw [(hacts.noteEntry (s.shc.get sc).active i r .filmMoved false none).shc]
      exact (stands_down (Shc.holding_spec ha).2.2 r.side)
    · exact ⟨(Shc.Arms.refl _).stirs, fun _ => rfl⟩

/-- R38: the gap is entered. -/
theorem enterGap_spec (s : State) (sc : Screen) (cause : ScreenCause) :
    ({ s.shc.get sc with state := .gap } : Shc).Stirs ((s.enterGap sc cause).shc.get sc) ∧
      (∀ p, ((s.enterGap sc cause).alc.get p).service = (s.alc.get p).service) ∧
      .post sc .halt (s.shc.get sc).setup.brk ∈ (s.enterGap sc cause).events := by
  generalize hv : (s.modShc sc fun c => { c with state := .gap }).postHalt sc (s.shc.get sc).setup.brk = v
  have heq : s.enterGap sc cause = ((v.gapArmed sc).evaluate sc).noteScreen sc (s.shc.get sc).state cause none := by
    rw [← hv]; rfl
  obtain ⟨hstirs, hservice⟩ := gapArmed_spec v sc
  have harms : Arms sc (v.gapArmed sc) (s.enterGap sc cause) := heq ▸ (Arms.refl _).evaluate.of_shc
  have hmoves : Moves sc v (s.enterGap sc cause) := heq ▸ ((Moves.refl _).gapArmed.evaluate.noteScreen _ _ _)
  refine ⟨?_, fun p => ((harms.service p).trans (hservice p)).trans (by rw [← hv]; rfl),
    hmoves.mem_events (by rw [← hv]; simp [State.postHalt])⟩
  have hrec : v.shc.get sc = { s.shc.get sc with state := .gap } := by rw [← hv]; simp [State.postHalt]
  exact hrec ▸ hstirs.trans harms.record.stirs

/-! ### The end of a performance (R37) -/

theorem skip_record (s : State) (sc : Screen) (x : Schedule) (gone : Nat → Bool) (reason : SchedReason) :
    (s.skip sc x gone reason).shc.get sc =
      { s.shc.get sc with schedule := ((s.skip sc x gone reason).shc.get sc).schedule } := by
  unfold State.skip
  split <;> simp

/-- R14: a pending switch that takes effect changes the banks, the schedule and the pending record alone. -/
theorem testSwitch_record (s : State) (sc : Screen) (now : Nat) :
    (s.testSwitch sc now).shc.get sc =
      { s.shc.get sc with
        bank0 := ((s.testSwitch sc now).shc.get sc).bank0, bank1 := ((s.testSwitch sc now).shc.get sc).bank1
        active := ((s.testSwitch sc now).shc.get sc).active, switch := ((s.testSwitch sc now).shc.get sc).switch
        schedule := ((s.testSwitch sc now).shc.get sc).schedule } := by
  unfold State.testSwitch
  dsimp only
  split
  · rfl
  · split
    · next w _ _ =>
      unfold State.takeSwitch
      dsimp only
      have hskip := skip_record ((s.modShc sc (·.takeSwitch w)).note (.switch sc true w.t0 w.tc w.np)) sc
        ⟨w.t0, w.tc, w.np, 0, 0, false, none, false⟩ (fun t => t + (s.shc.get sc).setup.grace < now) .lateSwitch
      have hrec : ((s.modShc sc (·.takeSwitch w)).note (.switch sc true w.t0 w.tc w.np)).shc.get sc =
          (s.shc.get sc).takeSwitch w := by simp
      generalize State.skip _ _ _ _ _ = u at hskip ⊢
      rw [hskip, hrec, Shc.takeSwitch, setBank_record]
    · rfl

/-- R37: the record of a screen whose performance has ended. -/
def Shc.ended (c : Shc) : Shc :=
  ({ c with perfCount := satSucc 65535 c.perfCount }.mapActive Entry.rewindInterval).idle

/-- R37: a performance ended, before the test of a pending switch. -/
def State.ended (s : State) (sc : Screen) : State :=
  let t := (s.modShc sc Shc.ended).noteScreen sc (s.shc.get sc).state .performanceEnd none
  t.note (.performanceEnd sc (t.shc.get sc).perfCount)

theorem endPerformance_eq (s : State) (sc : Screen) :
    s.endPerformance sc = (s.ended sc).testSwitch sc (s.ended sc).bck.time := rfl

theorem Acts.ended (h : Acts l sc d es s t) : Acts l sc d.ended es s (t.ended sc) :=
  ((h.modShc Shc.ended).noteScreen _ _ _).note _

theorem ended_record (c : Shc) : c.ended.state = .idle ∧ c.ended.perfCount = min 65535 (c.perfCount + 1) ∧
    c.ended.halt = c.halt := by
  simp [Shc.ended, Shc.idle, Shc.mapActive, satSucc]

theorem endPerformance_spec (s : State) (sc : Screen) :
    ((s.endPerformance sc).shc.get sc).state = .idle ∧
      ((s.endPerformance sc).shc.get sc).perfCount = min 65535 ((s.shc.get sc).perfCount + 1) ∧
      ((s.endPerformance sc).shc.get sc).halt = (s.shc.get sc).halt := by
  have hrec : (s.ended sc).shc.get sc = (s.shc.get sc).ended := ((Acts.start (l := []) s).ended).shc
  rw [endPerformance_eq, testSwitch_record, hrec]
  exact ended_record _

/-! ### The end of an interval (R40) -/

/-- R40: the record of a screen whose interval is DONE. -/
def Shc.intervalDone (c : Shc) : Shc := { c.enter c.current .done with preStrike := false, countdown := 0 }

/-- R40: the interval is DONE and the next entry resolved. -/
def State.intervalDone (s : State) (sc : Screen) : State :=
  (s.modShc sc Shc.intervalDone).noteFault sc ((s.shc.get sc).current + 1) ((s.shc.get sc).next (s.shc.get sc).current)

theorem intervalDone_acts (s : State) (sc : Screen) :
    Acts [] sc (s.shc.get sc).intervalDone [] s (s.intervalDone sc) :=
  ((Acts.start s).modShc Shc.intervalDone).noteFault _ _

theorem endInterval_eq (s : State) (sc : Screen) : s.endInterval sc =
    match (s.shc.get sc).next (s.shc.get sc).current with
    | .reel i r =>
      match (s.intervalDone sc).judgeStart sc i r with
      | (.armable short, s) => s.bringUp sc .cont i r short .intervalEnd
      | (.fails _, s) => s.enterGap sc .intervalEnd
    | .interval i d q => (s.intervalDone sc).enterInterval sc i d q .intervalEnd
    | .fault _ _ => (s.intervalDone sc).enterGap sc .intervalEnd
    | .finish =>
      if ((s.shc.get sc).holding .runningOut).isSome then (s.intervalDone sc).enterEnding sc .intervalEnd
      else ((s.intervalDone sc).postShow sc (s.shc.get sc).setup.fin).endPerformance sc := rfl

theorem lt_length_of_next_reel (h : c.next i = .reel j r) : i < (c.bank c.active).length := by
  by_contra hn
  have hge : (c.bank c.active).length ≤ i + 1 := by omega
  have hempty : resolve (c.bank c.active) (i + 1) = .fault (i + 1) .emptyEntry :=
    resolveFrom_of_empty (by rw [entryAt_of_ge hge]; rfl) 2
  unfold Shc.next nextAfter at h
  rw [hempty] at h
  split at h <;> cases h

theorem judgeStart_of_armed (h : ((s.shc.get sc).entry i).state = .armed) (r : Reel) :
    s.judgeStart sc i r = (.armable ((s.shc.get sc).entry i).short, s) := if_pos h

/-- R40: the next reel is ARMED and its lamp STABLE. -/
theorem endInterval_of_reel (hn : (s.shc.get sc).next (s.shc.get sc).current = .reel j r)
    (hj : j ≠ (s.shc.get sc).current) (ha : ((s.shc.get sc).entry j).state = .armed)
    (hl : (s.alc.get (sc.proj r.side)).state = .stable) :
    ((s.endInterval sc).shc.get sc).state = .preparing ∧ ((s.endInterval sc).shc.get sc).prep = .cont ∧
      ((s.endInterval sc).shc.get sc).current = j ∧ ((s.endInterval sc).shc.get sc).motor r.side = true ∧
      (((s.endInterval sc).shc.get sc).entry (s.shc.get sc).current).state = .done ∧
      .motorOnCommand (sc.proj r.side) ∈ (s.endInterval sc).events := by
  have hd := intervalDone_acts s sc
  have harmed : ((s.shc.get sc).intervalDone.entry j).state = .armed :=
    (congrArg Entry.state (enter_entry_of_ne hj.symm .done)).trans ha
  have hstable : ((s.intervalDone sc).alc.get (sc.proj r.side)).state = .stable := by rw [hd.alc]; exact hl
  have hacts (short : Bool) := (hd.bringUp (kind := .cont) (.inr harmed) short .intervalEnd (by rw [hstable]; rfl)).1
    hstable
  have heq : s.endInterval sc = (s.intervalDone sc).bringUp sc .cont j r
    (((s.intervalDone sc).shc.get sc).entry j).short
      .intervalEnd := by
    rw [endInterval_eq, hn]
    dsimp only
    rw [judgeStart_of_armed (by rw [hd.shc]; exact harmed)]
  rw [heq, (hacts _).shc, (hacts _).events]
  refine ⟨?_, ?_, ?_, Shc.setMotor_self _ _, ?_, by simp⟩
  · cases r.side <;> rfl
  · cases r.side <;> rfl
  · cases r.side <;> rfl
  · rw [setMotor_entry]
    exact congrArg Entry.state (enter_entry_self (lt_length_of_next_reel hn) .done)

/-- R40: the next entry is an INTERVAL. -/
theorem endInterval_of_interval (hn : (s.shc.get sc).next (s.shc.get sc).current = .interval j w q) :
    ((s.endInterval sc).shc.get sc).state = .interval ∧ ((s.endInterval sc).shc.get sc).current = j ∧
      ((s.endInterval sc).shc.get sc).countdown = w ∧ (((s.endInterval sc).shc.get sc).entry j).state = .active ∧
      .post sc .show_ q ∈ (s.endInterval sc).events := by
  have heq : s.endInterval sc = (s.intervalDone sc).enterInterval sc j w q .intervalEnd := by
    rw [endInterval_eq, hn]
  have hkind : (((s.intervalDone sc).shc.get sc).entry j).kind = .interval w q := by
    rw [(intervalDone_acts s sc).shc]
    exact (enter_kind _ _).trans (kind_of_next_interval hn)
  rw [heq]
  exact enterInterval_state hkind _

/-- R40: END is next, and no tail is running out. -/
theorem endInterval_of_finish (hn : (s.shc.get sc).next (s.shc.get sc).current = .finish)
    (ho : (s.shc.get sc).holding .runningOut = none) :
    s.endInterval sc = ((s.intervalDone sc).postShow sc (s.shc.get sc).setup.fin).endPerformance sc := by
  rw [endInterval_eq, hn, ho]
  rfl

/-- R40: END is next, and a tail is running out. -/
theorem endInterval_of_tail (hn : (s.shc.get sc).next (s.shc.get sc).current = .finish)
    (ho : ((s.shc.get sc).holding .runningOut).isSome = true) :
    ((s.endInterval sc).shc.get sc).state = .ending ∧
      .post sc .show_ (s.shc.get sc).setup.fin ∈ (s.endInterval sc).events := by
  have heq : s.endInterval sc = (s.intervalDone sc).enterEnding sc .intervalEnd := by
    rw [endInterval_eq, hn]
    exact if_pos ho
  have hacts := enterEnding_eq (s.intervalDone sc) sc .intervalEnd
  have hsetup : ((s.intervalDone sc).shc.get sc).setup = (s.shc.get sc).setup := by
    rw [(intervalDone_acts s sc).shc]
    exact Shc.setBank_setup _ _ _
  rw [heq, hacts.shc, hacts.events, hsetup]
  exact ⟨rfl, by simp⟩

/-- R40: the next entry is a programme fault. -/
theorem endInterval_of_fault {why : FaultReason} (hn : (s.shc.get sc).next (s.shc.get sc).current = .fault j why) :
    ((s.endInterval sc).shc.get sc).state = .gap ∧
      .post sc .halt (s.shc.get sc).setup.brk ∈ (s.endInterval sc).events := by
  have heq : s.endInterval sc = (s.intervalDone sc).enterGap sc .intervalEnd := by
    rw [endInterval_eq, hn]
  obtain ⟨hstirs, -, hpost⟩ := enterGap_spec (s.intervalDone sc) sc .intervalEnd
  have hsetup : ((s.intervalDone sc).shc.get sc).setup = (s.shc.get sc).setup := by
    rw [(intervalDone_acts s sc).shc]
    exact Shc.setBank_setup _ _ _
  rw [heq]
  exact ⟨hstirs.state, hsetup ▸ hpost⟩

end Sys2Proof.Machine
end

section
namespace Sys2Proof.Machine

variable {sc : Screen} {c d : Shc} {s t u : State} {p : Proj} {side : Side} {tag screen : Byte} {l : List Part}
  {es : List Instr} {i j w q : Nat} {r : Reel} {kind : PrepKind} {short : Bool} {cause : ScreenCause} {h : HaltRecord}

/-! ## RESUME (R45 to R48) -/

theorem Moves.answered {x : Instr} (h : Moves sc (s.taken x) t) (kind tag : Byte) (r : Result) :
    KeepsAllBut s (t.answer kind tag r) (screenParts sc) ∧
      Answered s.cnl (t.answer kind tag r).cnl ⟨kind + 0x80, tag, r, none, []⟩ := by
  obtain ⟨ns, hns⟩ := h.noted
  exact ⟨((keeps_taken s x).mono (by simp [screenParts])).trans (h.answer kind tag r).keeps, ns,
    congrArg (Cnl.fill · ⟨kind + 0x80, tag, r, none, []⟩) hns⟩

/-- R47: the halt record removed and the HALT rank released. -/
theorem Acts.leaveHalt (h : Acts l sc d es s t) :
    Acts l sc { d with halt := none } (es ++ [.haltRelease sc]) s (t.leaveHalt sc) :=
  (h.modShc fun c => { c with halt := none }).emit _

/-! ### The resume point PICTURE -/

theorem resumeHalted_of_point (he : s.bsu.estop = none) (hh : (s.shc.get sc).halt = some h) :
    resumeHalted tag sc s = match h.point with
      | .picture => resumePicture tag sc s
      | .reel => resumeReel tag sc h.index s
      | .after => resumeAfter tag sc h.index s := by
  have hestop : s.estopLatched = false := by simp [State.estopLatched, he]
  simp only [resumeHalted, hestop, hh] <;> rfl

/-- R47: RESUME at a PICTURE resume point, its shutter up and its loop closed. -/
theorem resumePicture_eq (ho : (s.shc.get sc).holding .onScreen = some (i, r)) : resumePicture tag sc s =
    let p := sc.proj r.side
    if s.shutterRaised p = false then s.answer 0x31 tag (.notReady .shutter)
    else if (s.trm.get p).closed = false then s.answer 0x31 tag (.notReady .loop)
    else
      match (if (s.alc.get p).state.lit then (.accepted, s) else s.askStrike p : Result × State) with
      | (.accepted, s) => ((s.leaveHalt sc).bringUp sc .resume i r false .resume).answer 0x31 tag .accepted
      | (x, s) => s.answer 0x31 tag (.notReady (lampReason x)) := by
  simp only [resumePicture, ho] <;> rfl

theorem resumePicture_of_ready (ho : (s.shc.get sc).holding .onScreen = some (i, r))
    (hs : (s.bsu.shutters.get (sc.proj r.side)).state = .raised)
    (hl : (s.trm.get (sc.proj r.side)).loopClosed = some true) :
    resumePicture tag sc s =
      match (if (s.alc.get (sc.proj r.side)).state.lit then (.accepted, s) else s.askStrike (sc.proj r.side) :
        Result × State) with
      | (.accepted, s) => ((s.leaveHalt sc).bringUp sc .resume i r false .resume).answer 0x31 tag .accepted
      | (x, s) => s.answer 0x31 tag (.notReady (lampReason x)) := by
  rw [resumePicture_eq ho]
  dsimp only
  rw [if_neg (by simp [State.shutterRaised, hs]), if_neg (by simp [Trm.closed, hl])]

/-- R47: the picture brought up again. -/
theorem Acts.resumed (h : Acts l sc c es s t) (hst : c.state = .halted)
    (hl : (t.alc.get (sc.proj r.side)).state.lit = true) :
    ((t.alc.get (sc.proj r.side)).state = .stable →
      Acts l sc ((({ c with halt := none } : Shc).broughtUp .resume i).setMotor r.side true)
        (es ++ [.haltRelease sc, .motorOnCommand (sc.proj r.side)]) s
        ((t.leaveHalt sc).bringUp sc .resume i r false .resume)) ∧
    ((t.alc.get (sc.proj r.side)).state ≠ .stable →
      Acts l sc (({ c with halt := none } : Shc).broughtUp .resume i) (es ++ [.haltRelease sc]) s
        ((t.leaveHalt sc).bringUp sc .resume i r false .resume)) ∧
    ((t.leaveHalt sc).bringUp sc .resume i r false .resume).alc = t.alc := by
  obtain ⟨hon, hoff, halc⟩ := h.leaveHalt.bringUp (kind := .resume) (i := i) (r := r) (.inl rfl) false .resume hl
  have hup : Shc.upEvents ({ c with halt := none } : Shc) sc .resume = [] := by simp [Shc.upEvents, hst]
  rw [hup] at hon hoff
  exact ⟨fun hs => by simpa using hon hs, fun hs => by simpa using hoff hs, halc⟩

/-! ### A reel that is ARMED (R46, R47) -/

theorem checkReel_of_armed (ha : ((s.shc.get sc).entry i).state = .armed) (r : Reel) : s.checkReel sc i r =
    match s.strikeDark (sc.proj r.side) with
    | (some x, s) => (.inl x, s)
    | (none, t) => (.inr ((s.shc.get sc).entry i).short, t) := by
  unfold State.checkReel
  rw [judgeStart_of_armed ha] <;> rfl

/-- R46, R47: where RESUME brings up an ARMED reel: from GAP the next one, from HALTED that of a REEL resume point or
the next one after an AFTER resume point. -/
def Shc.ResumesAt (c : Shc) (i : Nat) (r : Reel) : Prop :=
  (c.state = .gap ∧ c.next c.current = .reel i r) ∨
    (c.state = .halted ∧ ∃ h, c.halt = some h ∧
      ((h.point = .reel ∧ h.index = i) ∨ (h.point = .after ∧ c.next h.index = .reel i r)))

/-- R47: a halt that RESUME leaves. -/
def State.unhalted (s : State) (sc : Screen) (halted : Bool) : State := if halted then s.leaveHalt sc else s

theorem resumeScreen_of_check (hf : s.bsu.fire = none) (he : s.bsu.estop = none)
    (hk : ((s.shc.get sc).entry i).kind = .reel r) (hat : (s.shc.get sc).ResumesAt i r) :
    ∃ cause, resumeScreen tag sc s =
      match s.checkReel sc i r with
      | (.inl x, s) => s.answer 0x31 tag (.notReady x)
      | (.inr short, t) =>
        ((t.unhalted sc ((s.shc.get sc).state = .halted)).bringUp sc .cont i r short cause).answer 0x31 tag
          .accepted := by
  have hestop : s.estopLatched = false := by simp [State.estopLatched, he]
  obtain ⟨hst, hn⟩ | ⟨hst, h, hh, ⟨hp, rfl⟩ | ⟨hp, hn⟩⟩ := hat
  · refine ⟨.cont, ?_⟩
    rw [resumeScreen_of_gap hf hst, hst]
    simp only [resumeGap, hestop, hn, State.noteFault] <;> rfl
  · refine ⟨.resume, ?_⟩
    rw [resumeScreen_of_halted hf hst, resumeHalted_of_point he hh, hp, hst]
    simp only [resumeReel, hk] <;> rfl
  · refine ⟨.resume, ?_⟩
    rw [resumeScreen_of_halted hf hst, resumeHalted_of_point he hh, hp, hst]
    simp only [resumeAfter, hn, State.noteFault] <;> rfl

theorem Acts.unhalted (h : Acts l sc d es s t) (halted : Bool) :
    Acts l sc { d with halt := if halted then none else d.halt } (es ++ if halted then [.haltRelease sc] else []) s
      (t.unhalted sc halted) := by
  cases halted
  · simpa [State.unhalted] using h
  · exact h.leaveHalt

/-- R30, R46, R47: an ARMED reel brought up from GAP or from HALTED. -/
theorem Acts.continued (h : Acts l sc c es s t) (hst : c.state = .gap ∨ c.state = .halted)
    (ha : (c.entry i).state = .armed) (short : Bool) (cause : ScreenCause)
    (hl : (t.alc.get (sc.proj r.side)).state.lit = true) :
    let up := ({ c with halt := if c.state = .halted then none else c.halt } : Shc).broughtUp .cont i
    let u := (t.unhalted sc (c.state = .halted)).bringUp sc .cont i r short cause
    ((t.alc.get (sc.proj r.side)).state = .stable →
      Acts l sc (up.setMotor r.side true) (es ++ [.haltRelease sc, .motorOnCommand (sc.proj r.side)]) s u) ∧
    ((t.alc.get (sc.proj r.side)).state ≠ .stable → Acts l sc up (es ++ [.haltRelease sc]) s u) ∧ u.alc = t.alc := by
  have halc : (t.unhalted sc (c.state = .halted)).alc = t.alc := by
    unfold State.unhalted
    split <;> rfl
  obtain ⟨hon, hoff, hka⟩ := (h.unhalted (c.state = .halted)).bringUp (kind := .cont) (i := i) (r := r) (.inr ha) short
    cause (by rwa [halc])
  rw [halc] at hon hoff hka
  intro up u
  have hev : (if c.state = .halted then [.haltRelease sc] else []) ++ Shc.upEvents ({ c with halt :=
      if c.state = .halted then none else c.halt } : Shc) sc .cont = [.haltRelease sc] := by
    obtain hs | hs := hst <;> simp [Shc.upEvents, hs]
  simp only [decide_eq_true_eq] at hon hoff
  rw [List.append_assoc es, hev] at hon hoff
  rw [List.append_assoc es [_]] at hon
  exact ⟨hon, hoff, hka⟩

/-! ### The resume point AFTER (R47, R48) -/

theorem leaveHalt_moves (s : State) (sc : Screen) : Moves sc s (s.leaveHalt sc) := ((Moves.refl s).field _).emit _

theorem leaveHalt_spec (s : State) (sc : Screen) :
    (s.leaveHalt sc).shc.get sc = { s.shc.get sc with halt := none } ∧ .haltRelease sc ∈ (s.leaveHalt sc).events := by
  simp [State.leaveHalt]

theorem resumeAfter_of_interval (hn : (s.shc.get sc).next i = .interval j w q) :
    resumeAfter tag sc i s = ((s.leaveHalt sc).enterInterval sc j w q .resume).answer 0x31 tag .done := by
  simp only [resumeAfter, hn, State.noteFault]

theorem resumeAfter_of_finish (hn : (s.shc.get sc).next i = .finish) :
    resumeAfter tag sc i s =
      (((s.leaveHalt sc).postShow sc (s.shc.get sc).setup.fin).endPerformance sc).answer 0x31 tag .done := by
  simp only [resumeAfter, hn, State.noteFault]

theorem resumeAfter_of_fault {why : FaultReason} (hn : (s.shc.get sc).next i = .fault j why) :
    resumeAfter tag sc i s = (s.note (.programmeFault sc (s.shc.get sc).active (i + 1) j why)).answer 0x31 tag
      (.notReady .notThreaded) := by
  simp only [resumeAfter, hn, State.noteFault]

theorem resumeScreen_of_after (hf : s.bsu.fire = none) (he : s.bsu.estop = none) (hst : (s.shc.get sc).state = .halted)
    (hh : (s.shc.get sc).halt = some h) (hp : h.point = .after) :
    resumeScreen tag sc s = resumeAfter tag sc h.index s := by
  rw [resumeScreen_of_halted hf hst, resumeHalted_of_point he hh, hp]

/-! ### An interval of duration 0 (R45) -/

theorem resumeInterval_eq (he : s.bsu.estop = none) :
    resumeInterval tag sc s = (s.endInterval sc).answer 0x31 tag
      (if (match (s.shc.get sc).next (s.shc.get sc).current with
        | .reel i r => match (s.judgeStart sc i r).1 with | .armable _ => true | .fails _ => false
        | _ => false) then .accepted else .done) := by
  have hestop : s.estopLatched = false := by simp [State.estopLatched, he]
  simp only [resumeInterval, hestop] <;> rfl

theorem resumeInterval_of_no_reel (he : s.bsu.estop = none)
    (hn : ∀ j r, (s.shc.get sc).next (s.shc.get sc).current ≠ .reel j r) :
    resumeInterval tag sc s = (s.endInterval sc).answer 0x31 tag .done := by
  rw [resumeInterval_eq he]
  split
  · next j r hr => exact absurd hr (hn j r)
  · rfl

theorem resumeInterval_of_armed (he : s.bsu.estop = none) (hn : (s.shc.get sc).next (s.shc.get sc).current = .reel j r)
    (ha : ((s.shc.get sc).entry j).state = .armed) :
    resumeInterval tag sc s = (s.endInterval sc).answer 0x31 tag .accepted := by
  rw [resumeInterval_eq he, if_pos]
  simp only [hn, judgeStart_of_armed ha]

/-- Settles O28: the resume point PICTURE, an ARMED reel, and what else comes after a halt or an interval. -/
theorem resumeBringsTheScreenBack : Obligations.ResumeBringsTheScreenBack := by
  refine ⟨fun tag screen sc h i r s => ?_, fun tag screen sc i r s => ?_, fun tag screen sc i s => ?_⟩
  · intro x c p reply hs hst hf he hh hp ho
    have run : exec x s = _ := congrArg Host.Outcome.next ((resume_of_screen hs tag (s.taken x)).trans
      ((resumeScreen_of_halted (s := s.taken x) hf hst).trans (resumeHalted_of_point (s := s.taken x) he hh)))
    rw [hp] at run
    refine ⟨fun h1 => run.trans (congrArg Host.Outcome.next ((resumePicture_eq (s := s.taken x) ho).trans
        (if_pos (decide_eq_false h1)))),
      fun h1 h2 => run.trans (congrArg Host.Outcome.next ((resumePicture_eq (s := s.taken x) ho).trans
        ((if_neg (ne_false_of_eq_true (decide_eq_true h1))).trans (if_pos (decide_eq_false h2))))),
      fun h1 h2 hlit => ?_, fun h1 h2 hdark => ?_⟩
    · obtain ⟨hon, hoff, -⟩ := (Acts.start (l := []) (s.taken x)).resumed (i := i) (r := r) hst hlit
      have hrun := run.trans (congrArg Host.Outcome.next (resumePicture_of_ready (s := s.taken x) ho h1 h2))
      rw [if_pos (by exact hlit)] at hrun
      refine ⟨_, hrun, ?_⟩
      by_cases hstable : (s.alc.get p).state = .stable
      · obtain ⟨hkeep, hans, hrec, hev⟩ := (hon hstable).answered 0x31 tag .accepted
        exact ⟨hkeep, hans, fun _ => ⟨hrec, hev⟩, fun hn => absurd hstable hn⟩
      · obtain ⟨hkeep, hans, hrec, hev⟩ := (hoff hstable).answered 0x31 tag .accepted
        exact ⟨hkeep, hans, fun hn => absurd hn hstable, fun _ => ⟨hrec, hev⟩⟩
    · have hlit : (s.alc.get p).state.lit = false := by obtain hd | hd := hdark <;> rw [hd] <;> rfl
      have hrun := run.trans (congrArg Host.Outcome.next (resumePicture_of_ready (s := s.taken x) ho h1 h2))
      rw [if_neg (by simpa using hlit)] at hrun
      refine ⟨fun hr => ?_, fun hr hx => ?_, fun hr hx => ?_⟩
      · rw [askStrike_of_refusal (strikeRefusal_of_no_trim (s := s.taken x) hlit hr)] at hrun
        exact hrun
      · rw [askStrike_of_refusal (strikeRefusal_of_unproven (s := s.taken x) hlit hr hx)] at hrun
        exact hrun
      · rw [askStrike_of_none (strikeRefusal_eq_none (s := s.taken x) hlit hr hx hf)] at hrun
        have hstrike := (Acts.start (l := [.alc p]) (sc := sc) (s.taken x)).strike (p := p) (by simp) .struck
        have hstriking := beginStrike_striking (s.taken x) p .struck
        obtain ⟨-, hoff, halc⟩ := hstrike.resumed (i := i) (r := r) hst (by rw [hstriking]; rfl)
        obtain ⟨hkeep, hans, hrec, hev⟩ := (hoff (by rw [hstriking]; simp)).answered 0x31 tag .accepted
        exact ⟨_, hrun, hkeep, (congrArg (fun a => (a.get p).state) halc).trans hstriking, hans, hev, hrec⟩
  · intro x c p refused up hs hf he hk ha hat
    have hst : c.state = .gap ∨ c.state = .halted := hat.imp And.left And.left
    obtain ⟨cause, hcheck⟩ := resumeScreen_of_check (tag := tag) (s := s.taken x) hf he hk hat
    have run : exec x s = _ := congrArg Host.Outcome.next ((resume_of_screen hs tag (s.taken x)).trans hcheck)
    rw [checkReel_of_armed (by exact ha)] at run
    refine ⟨fun hstable => ?_, fun hdark => ⟨fun hr => ?_, fun hr hx => ?_, fun hr hx => ?_⟩⟩
    · rw [strikeDark_of_lit (s := s.taken x) (p := p) (by exact hstable ▸ nofun)] at run
      obtain ⟨hon, -, -⟩ := (Acts.start (l := []) (s.taken x)).continued (r := r) hst ha (c.entry i).short cause
        (by exact hstable ▸ rfl)
      obtain ⟨hkeep, hans, hrec, hev⟩ := (hon hstable).answered 0x31 tag .accepted
      exact ⟨_, run, hkeep, hans, hev, hrec⟩
    · rw [strikeDark_of_refused (s := s.taken x) hdark (strikeRefusal_of_no_trim (by exact hdark ▸ rfl) hr)] at run
      exact run
    · rw [strikeDark_of_refused (s := s.taken x) hdark (strikeRefusal_of_unproven (by exact hdark ▸ rfl) hr hx)] at run
      exact run
    · rw [strikeDark_of_dark (s := s.taken x) hdark hr hx hf] at run
      have hstrike := (Acts.start (l := [.alc p]) (sc := sc) (s.taken x)).strike (p := p) (by simp) .struck
      have hstriking := beginStrike_striking (s.taken x) p .struck
      obtain ⟨-, hoff, halc⟩ := hstrike.continued (i := i) (r := r) hst ha (c.entry i).short cause
        (by rw [hstriking]; rfl)
      obtain ⟨hkeep, hans, hrec, hev⟩ := (hoff (by rw [hstriking]; simp)).answered 0x31 tag .accepted
      refine ⟨_, run, hkeep, (congrArg (fun a => (a.get p).state) halc).trans hstriking, hans, ?_, hrec⟩
      have hd : ((s.taken x).alc.get p).state = .dark := hdark
      rw [hd] at hev
      exact hev
  · intro x c leads interval ends hs hf he
    have run : exec x s = _ := congrArg Host.Outcome.next (resume_of_screen hs tag (s.taken x))
    refine ⟨fun h hst hh hp hi => ?_, fun hst hc hi => ?_⟩
    · subst hi
      have after := run.trans
        (congrArg Host.Outcome.next (resumeScreen_of_after (tag := tag) (s := s.taken x) hf he hst hh hp))
      obtain ⟨hleft, hreleased⟩ := leaveHalt_spec (s.taken x) sc
      refine ⟨fun j d q hn => ?_, fun hn => ?_, fun k why hn =>
        after.trans (congrArg Host.Outcome.next (resumeAfter_of_fault hn))⟩
      · have hmoves := (Moves.refl (sc := sc) ((s.taken x).leaveHalt sc)).enterInterval j d q .resume
        obtain ⟨hkeep, hans⟩ := ((leaveHalt_moves _ _).trans hmoves).answered 0x31 tag .done
        have hkind : ((((s.taken x).leaveHalt sc).shc.get sc).entry j).kind = .interval d q := by
          rw [hleft]
          exact kind_of_next_interval hn
        refine ⟨_, after.trans (congrArg Host.Outcome.next (resumeAfter_of_interval hn)), hkeep, hans,
          enterInterval_state hkind _, fun _ => ⟨?_, hmoves.mem_events hreleased⟩⟩
        obtain ⟨harms, -, -⟩ := enterInterval_spec ((s.taken x).leaveHalt sc) sc j d q .resume
        rw [hleft] at harms
        exact harms.halt.trans (congrArg Shc.halt (enter_record _ j .active))
      · have hmoves := ((Moves.refl (sc := sc) ((s.taken x).leaveHalt sc)).postShow c.setup.fin).endPerformance
        obtain ⟨hkeep, hans⟩ := ((leaveHalt_moves _ _).trans hmoves).answered 0x31 tag .done
        obtain ⟨hidle, hcount, hhalt⟩ := endPerformance_spec (((s.taken x).leaveHalt sc).postShow sc c.setup.fin) sc
        have hpost := (Moves.refl (sc := sc)
          (((s.taken x).leaveHalt sc).postShow sc c.setup.fin)).endPerformance.mem_events
          (x := .post sc .show_ c.setup.fin) (by simp [State.postShow])
        refine ⟨_, after.trans (congrArg Host.Outcome.next (resumeAfter_of_finish hn)), hkeep, hans,
          ⟨hidle, hcount.trans ?_, hpost⟩, fun _ => ⟨hhalt.trans ?_, hmoves.mem_events hreleased⟩⟩
        · have hsame : (((s.taken x).leaveHalt sc).shc.get sc).perfCount = c.perfCount := by
            rw [hleft]
            rfl
          exact congrArg (fun n => min 65535 (n + 1)) hsame
        · exact congrArg Shc.halt hleft
    · subst hi
      have ended := run.trans
        (congrArg Host.Outcome.next (resumeScreen_of_interval (tag := tag) (s := s.taken x) hf hst hc))
      have hmoves := (Moves.refl (s.taken x)).endInterval (sc := sc)
      have seen (res : Result) := hmoves.answered 0x31 tag res
      have quiet (hn : ∀ j r, c.next c.current ≠ .reel j r) := ended.trans (congrArg Host.Outcome.next
        (resumeInterval_of_no_reel (tag := tag) (s := s.taken x) he hn))
      refine ⟨fun j r hn hj ha hl => ?_, fun j d q hn => ?_, fun hn ho => ?_, fun hn ho => ?_, fun k why hn => ?_⟩
      · exact ⟨_, ended.trans (congrArg Host.Outcome.next (resumeInterval_of_armed he hn ha)), (seen _).1, (seen _).2,
          endInterval_of_reel (s := s.taken x) hn hj ha hl, nofun⟩
      · exact ⟨_, quiet (by simp [hn]), (seen _).1, (seen _).2, endInterval_of_interval (s := s.taken x) hn, nofun⟩
      · have hend := endInterval_of_finish (s := s.taken x) (sc := sc) hn ho
        obtain ⟨hidle, hcount, -⟩ := endPerformance_spec (((s.taken x).intervalDone sc).postShow sc c.setup.fin) sc
        have hpost := (Moves.refl (sc := sc)
          (((s.taken x).intervalDone sc).postShow sc c.setup.fin)).endPerformance.mem_events
          (sc := sc) (x := .post sc .show_ c.setup.fin) (by simp [State.postShow])
        have hdone := (intervalDone_acts (s.taken x) sc).shc
        refine ⟨_, quiet (by simp [hn]), (seen _).1, (seen _).2, ?_, nofun⟩
        rw [hend]
        have hsame : (((s.taken x).intervalDone sc).shc.get sc).perfCount = c.perfCount := by
          rw [hdone]
          exact Shc.setBank_perfCount _ _ _
        exact ⟨hidle, hcount.trans (congrArg (fun n => min 65535 (n + 1)) hsame), hpost⟩
      · exact ⟨_, quiet (by simp [hn]), (seen _).1, (seen _).2, endInterval_of_tail (s := s.taken x) hn ho, nofun⟩
      · exact ⟨_, quiet (by simp [hn]), (seen _).1, (seen _).2, endInterval_of_fault (s := s.taken x) hn, nofun⟩

end Sys2Proof.Machine
end

section
namespace Sys2Proof.Machine

variable {sc : Screen} {c d : Shc} {s t u : State} {p : Proj} {side : Side} {l : List Part}
  {es : List Instr} {i j : Nat} {r q : Reel} {how : FiredAs} {why : NotReady} {reopen : State → State}

/-! ## The changeover cue (R64 to R67) -/

/-- R61: a cue of the ON_SCREEN entry of a screen that is SHOWING. -/
theorem cueFired_of_showing (hst : (s.shc.get p.screen).state = .showing)
    (ho : (s.shc.get p.screen).holdingOn .onScreen p.side = some (i, r)) (cue : Cue) (how : FiredAs) :
    cueFired p cue how s =
      match cue with
      | .motor => (s.emit (.cueWindowClose p)).motorCue (State.openWindows p.screen cueFuel) p.screen
      | .changeover =>
        (s.emit (.cueWindowClose p)).changeoverCue (State.openWindows p.screen cueFuel) p.screen how i r := by
  simp only [cueFired, hst, ho] <;> rfl

theorem setMotor_of_off (h : c.motor side = false) : c.setMotor side false = c := by
  obtain ⟨⟩ := c
  cases side <;> simp_all [Shc.motor, Shc.setMotor]

/-- R67: an ARMED entry stood down. -/
theorem standDown_eq (s : State) (sc : Screen) (j : Nat) (q : Reel) : s.standDown sc j q = { s with
    events := s.events ++ (if (s.shc.get sc).motor q.side then [.motorStop (sc.proj q.side)] else [])
    shc := s.shc.set sc { ((s.shc.get sc).setMotor q.side false).modEntry (s.shc.get sc).active j (·.become .loaded) with
      strikeFrame := none } } := by
  unfold State.standDown State.motorOff
  cases hm : (s.shc.get sc).motor q.side
  · simp [State.modShc, setMotor_of_off hm, Shc.enter]
  · simp [State.modShc, State.emit, proj_screen, proj_side, Shc.enter]

theorem missChangeover_of_none (h : (s.shc.get sc).holding .armed = none) (how : FiredAs) (why : NotReady) (i : Nat)
    (r : Reel) : s.missChangeover sc how why i r = (s.dropStrikeFrame sc).note (.changeover sc false how (some why) i
      r.title (s.trm.get (sc.proj r.side)).count none 0 0 0) := by
  simp only [State.missChangeover, h]

theorem missChangeover_of_armed (h : (s.shc.get sc).holding .armed = some (j, q)) (how : FiredAs) (why : NotReady)
    (i : Nat) (r : Reel) : s.missChangeover sc how why i r = (s.standDown sc j q).note (.changeover sc false how
      (some why) i r.title (s.trm.get (sc.proj r.side)).count (some j) q.title (s.trm.get (sc.proj q.side)).count
        0) := by
  simp only [State.missChangeover, h]

/-- R64: before an INTERVAL or the END the reel runs on. -/
theorem changeoverCue_of_run_on
    (h : (s.shc.get sc).next i = .finish ∨ ∃ k d w, (s.shc.get sc).next i = .interval k d w) :
    s.changeoverCue reopen sc how i r = s.setProgress sc .changeoverFired := by
  obtain h | ⟨k, d, w, h⟩ := h <;> simp only [State.changeoverCue, h, State.noteFault]

/-- R64, R65: the next reel is ARMED. -/
theorem changeoverCue_of_armed (hn : (s.shc.get sc).next i = .reel j q) (ha : ((s.shc.get sc).entry j).state = .armed) :
    s.changeoverCue reopen sc how i r =
      match s.unready (sc.proj q.side) with
      | none => (s.setProgress sc .changeoverFired).changeover reopen sc how i r j q
      | some x => (s.setProgress sc .changeoverFired).missChangeover sc how x i r := by
  simp only [State.changeoverCue, hn, State.noteFault, ha, if_true] <;> rfl

theorem changeoverCue_of_not_armed (hn : (s.shc.get sc).next i = .reel j q)
    (ha : ((s.shc.get sc).entry j).state ≠ .armed) :
    s.changeoverCue reopen sc how i r = (s.setProgress sc .changeoverFired).missChangeover sc how .notArmed i r := by
  simp only [State.changeoverCue, hn, State.noteFault, ha, if_false]

theorem setProgress_shc (s : State) (sc : Screen) (x : CueProgress) :
    (s.setProgress sc x).shc.get sc = { s.shc.get sc with progress := x } := by
  simp [State.setProgress]

/-- R67: the changeover of an ARMED reel that is not ready. -/
theorem changeoverCue_of_unready (hn : (s.shc.get sc).next i = .reel j q)
    (hh : (s.shc.get sc).holding .armed = some (j, q)) (hw : s.unready (sc.proj q.side) = some why) :
    s.changeoverCue reopen sc how i r = { s with
      events := s.events ++ (if (s.shc.get sc).motor q.side then [.motorStop (sc.proj q.side)] else [])
      shc := s.shc.set sc { (({ s.shc.get sc with progress := .changeoverFired } : Shc).setMotor q.side false).modEntry
        (s.shc.get sc).active j (·.become .loaded) with strikeFrame := none }
      cnl := s.cnl.raise ⟨s.bck.time, .changeover sc false how (some why) i r.title
        (s.trm.get (sc.proj r.side)).count (some j) q.title (s.trm.get (sc.proj q.side)).count 0⟩ } := by
  have hh' : ((s.setProgress sc .changeoverFired).shc.get sc).holding .armed = some (j, q) := by
    rw [setProgress_shc]
    exact hh
  rw [changeoverCue_of_armed hn (Shc.holding_spec hh).2.2, hw]
  dsimp only
  rw [missChangeover_of_armed hh', standDown_eq, setProgress_shc]
  simp [State.setProgress, State.modShc, State.note] <;> rfl

/-- R67: the changeover with no ARMED reel. -/
theorem changeoverCue_of_none (hn : (s.shc.get sc).next i = .reel j q)
    (hh : (s.shc.get sc).holding .armed = none) :
    s.changeoverCue reopen sc how i r = { s with
      shc := s.shc.set sc { s.shc.get sc with progress := .changeoverFired, strikeFrame := none }
      cnl := s.cnl.raise ⟨s.bck.time, .changeover sc false how (some .notArmed) i r.title
        (s.trm.get (sc.proj r.side)).count none 0 0 0⟩ } := by
  have hh' : ((s.setProgress sc .changeoverFired).shc.get sc).holding .armed = none := by
    rw [setProgress_shc]
    exact hh
  rw [changeoverCue_of_not_armed hn (Shc.not_of_holding_none hh (kind_of_next_reel hn)), missChangeover_of_none hh']
  simp [State.setProgress, State.dropStrikeFrame, State.modShc, State.note] <;> rfl

/-- Settles O39: a changeover cue before an INTERVAL or the END, with the ARMED reel not ready, and with none ARMED. -/
theorem missedChangeoverStandsTheReelDown : Obligations.MissedChangeoverStandsTheReelDown := by
  intro p how count i r s x sc c nOut hst ho hside closed fired
  have run : exec x s = _ := congrArg Host.Outcome.next (cueFired_of_showing (s := s.taken x) hst ho .changeover how)
  have hp : sc.proj r.side = p := by rw [hside]; exact screen_proj p
  refine ⟨fun hn => ?_, fun j q hn hh ha => ?_, fun j q hn ha hh => ?_⟩
  · refine run.trans (congrArg Host.Outcome.next ((changeoverCue_of_run_on (by exact hn)).trans ?_))
    rfl
  · intro u why hw
    refine run.trans (congrArg Host.Outcome.next ((changeoverCue_of_unready (by exact hn) (by exact hh)
      (unready_eq_some (by exact hw))).trans ?_))
    rw [hp]
    rfl
  · refine run.trans (congrArg Host.Outcome.next ((changeoverCue_of_none (by exact hn) (by exact hh)).trans ?_))
    rw [hp]
    rfl

end Sys2Proof.Machine
end

section
namespace Sys2Proof.Machine

variable {sc : Screen} {c d : Shc} {s t u : State} {p : Proj} {side : Side} {l : List Part}
  {es : List Instr} {i j n m : Nat} {r q : Reel} {how : FiredAs} {why : NotReady} {reopen : State → State}

/-! ## The changeover (R66) -/

/-- A resolution sees the kinds of the entries alone. -/
theorem resolveFrom_congr {bs bs' : List Entry} (h : ∀ k, (entryAt bs' k).kind = (entryAt bs k).kind) (hops k : Nat) :
    resolveFrom bs' hops k = resolveFrom bs hops k := by
  induction hops generalizing k with
  | zero =>
    unfold resolveFrom
    rw [h k]
  | succ hops ih =>
    unfold resolveFrom
    rw [h k]
    split <;> first | rfl | (split; rfl; exact ih _)

theorem next_congr (h : ∀ k, (d.entry k).kind = (c.entry k).kind) (i : Nat) : d.next i = c.next i := by
  unfold Shc.next nextAfter
  split
  · exact resolveFrom_congr h _ _
  · rfl

theorem holding_of_unique {st : EntryState} (hk : (c.entry j).kind = .reel q) (hs : (c.entry j).state = st)
    (hu : ∀ k, (c.entry k).state = st → k = j) : c.holding st = some (j, q) := by
  cases hh : c.holding st with
  | none => exact absurd hs (Shc.not_of_holding_none hh hk)
  | some x =>
    obtain ⟨k, r⟩ := x
    obtain ⟨-, hkind, hst⟩ := Shc.holding_spec hh
    obtain rfl := hu k hst
    rw [hk] at hkind
    injection hkind with hq
    rw [hq]

theorem holdingOn_of_unique {st : EntryState} (hk : (c.entry j).kind = .reel q) (hs : (c.entry j).state = st)
    (hu : ∀ k, (c.entry k).state = st → k = j) (hside : q.side = side) : c.holdingOn st side = some (j, q) := by
  cases hh : c.holdingOn st side with
  | none => exact absurd hs (Shc.not_of_holdingOn_none hh hk hside)
  | some x =>
    obtain ⟨k, r⟩ := x
    obtain ⟨-, hkind, hst, -⟩ := Shc.holdingOn_spec hh
    obtain rfl := hu k hst
    rw [hk] at hkind
    injection hkind with hq
    rw [hq]

/-- R66: the record of a screen that has changed over. -/
structure Shc.Passed (c d : Shc) (i : Nat) (r : Reel) (j : Nat) (q : Reel) : Prop where
  state : d.state = c.state
  closed : d.douser r.side = false
  opened : d.douser q.side = true
  sound : d.sound = q.side
  muted : d.muted = false
  current : d.current = j
  progress : d.progress = .none
  incoming : (d.entry j).state = .onScreen
  outgoing : (d.entry i).state = .runningOut

theorem Shc.Passed.arms {e : Shc} (h : c.Passed d i r j q) (k : d.Arms e) : c.Passed e i r j q where
  state := k.state.trans h.state
  closed := (k.douser _).trans h.closed
  opened := (k.douser _).trans h.opened
  sound := k.sound.trans h.sound
  muted := k.muted.trans h.muted
  current := k.current.trans h.current
  progress := k.progress.trans h.progress
  incoming := by rw [(k.entry j).eq (by simp [h.incoming]), h.incoming]
  outgoing := by rw [(k.entry i).eq (by simp [h.outgoing]), h.outgoing]

/-- R66: the record of a screen that changes over, but for its banks and dousers. -/
theorem changeover_record (c : Shc) (i : Nat) (r : Reel) (j : Nat) (q : Reel) :
    c.changeover i r j q = { c with
      bank0 := (c.changeover i r j q).bank0, bank1 := (c.changeover i r j q).bank1
      douserA := (c.changeover i r j q).douserA, douserB := (c.changeover i r j q).douserB
      sound := q.side, muted := false, current := j, progress := .none, strikeFrame := none } := by
  unfold Shc.changeover Shc.enter Shc.modEntry
  cases hb : c.active <;> cases r.side <;> cases q.side <;> simp [Shc.setDouser, Shc.setBank, Shc.bank, hb]

theorem changeover_douser (c : Shc) (i : Nat) (r : Reel) (j : Nat) (q : Reel) (side : Side) :
    (c.changeover i r j q).douser side = ((c.setDouser r.side false).setDouser q.side true).douser side := by
  simp only [Shc.changeover, Shc.enter, Shc.modEntry]
  generalize (c.setDouser r.side false).setDouser q.side true = d
  cases d.active <;> cases side <;> rfl

theorem changeover_entry (c : Shc) (i : Nat) (r : Reel) (j : Nat) (q : Reel) (k : Nat) :
    (c.changeover i r j q).entry k = ((c.enter j .onScreen).enter i .runningOut).entry k := by
  unfold Shc.changeover Shc.enter Shc.modEntry Shc.entry
  cases hb : c.active <;> cases r.side <;> cases q.side <;> simp [Shc.setDouser, Shc.setBank, Shc.bank, hb]

theorem changeover_kind (c : Shc) (k : Nat) : ((c.changeover i r j q).entry k).kind = (c.entry k).kind := by
  rw [changeover_entry, enter_kind, enter_kind]

/-- R66: the changeover of the screen's record. -/
theorem changeover_passed (ho : c.holding .onScreen = some (i, r)) (ha : c.holding .armed = some (j, q))
    (hq : q.side = r.side.other) : c.Passed (c.changeover i r j q) i r j q := by
  obtain ⟨hi, -, hist⟩ := Shc.holding_spec ho
  obtain ⟨hj, -, hjst⟩ := Shc.holding_spec ha
  have hne : i ≠ j := by
    rintro rfl
    rw [hist] at hjst
    cases hjst
  have hlen : i < ((c.enter j .onScreen).bank (c.enter j .onScreen).active).length := by
    simpa [Shc.enter, Shc.modEntry] using hi
  refine ⟨?_, ?_, ?_, ?_, ?_, rfl, rfl, ?_, ?_⟩
  · rw [changeover_record]
  · rw [changeover_douser, hq]
    cases r.side <;> rfl
  · rw [changeover_douser]
    exact Shc.setDouser_self _ _
  · rw [changeover_record]
  · rw [changeover_record]
  · rw [changeover_entry, enter_entry_of_ne hne, enter_entry_self hj]
    rfl
  · rw [changeover_entry, enter_entry_self hlen]
    rfl

/-- After a changeover the incoming entry alone is ON_SCREEN. -/
theorem changeover_onScreen (ho : c.holding .onScreen = some (i, r)) (ha : c.holding .armed = some (j, q))
    (hq : q.side = r.side.other) (hu : ∀ k, (c.entry k).state = .onScreen → k = i) :
    (c.changeover i r j q).holding .onScreen = some (j, q) := by
  have hp := changeover_passed ho ha hq
  refine holding_of_unique ((changeover_kind c j).trans (Shc.holding_spec ha).2.1) hp.incoming fun k hk => ?_
  by_contra hne
  have hki : k ≠ i := by
    rintro rfl
    rw [hp.outgoing] at hk
    cases hk
  rw [changeover_entry, enter_entry_of_ne hki.symm, enter_entry_of_ne (Ne.symm hne)] at hk
  exact hki (hu k hk)

theorem Acts.lightStep (h : Acts l sc d es s t) (r : Reel) (n : Nat) :
    ∃ es', Acts l sc d (es ++ es') s (t.lightStep sc r n) := by
  unfold State.lightStep State.postPoint
  split
  · exact ⟨_, h.postShow _⟩
  · exact ⟨[], by simpa using h⟩

/-- R60: the motor cue window of the ON_SCREEN entry opened. -/
theorem openWindows_motor (ho : (s.shc.get sc).holding .onScreen = some (j, q)) (hp : (s.shc.get sc).progress = .none)
    (hc : (s.trm.get (sc.proj q.side)).count < q.fm) (n : Nat) :
    State.openWindows sc (n + 1) s = s.emit (.cueWindowOpen (sc.proj q.side) .motor q.fm) := by
  have hlast : (s.trm.get (sc.proj q.side)).count <
      lastFrame (s.shc.get sc).setup.cueMode (s.shc.get sc).setup.w q.fm := by
    unfold lastFrame
    split <;> omega
  unfold State.openWindows
  simp only [ho, hp, hlast, if_true]

theorem Told.of_noted {a b : Cnl} (h : Noted a b) (x : Notice) : Told a (b.raise x) x := by
  obtain ⟨before, rfl⟩ := h
  exact ⟨before, [], by simp [List.foldl_append]⟩

theorem Told.after {a b e : Cnl} {x : Notice} (h : Told a b x) (k : Noted b e) : Told a e x := by
  obtain ⟨before, after, rfl⟩ := h
  obtain ⟨more, rfl⟩ := k
  exact ⟨before, after ++ more, by simp [List.foldl_append]⟩

/-- R66: a changeover up to the opening of the cue window. -/
def State.passed (s : State) (sc : Screen) (i : Nat) (r : Reel) (j : Nat) (q : Reel) : State :=
  let n := (s.trm.get (sc.proj q.side)).count
  let s := s.modShc sc (·.changeover i r j q)
  let s := (s.unserve (sc.proj r.side)).serve sc j q
  (s.emit (.cueWindowClose (sc.proj r.side))).lightStep sc q n

theorem passed_acts (s : State) (sc : Screen) (i : Nat) (r : Reel) (j : Nat) (q : Reel) :
    ∃ es, Acts [.alc (sc.proj r.side), .alc (sc.proj q.side)] sc ((s.shc.get sc).changeover i r j q)
      ([.cueWindowClose (sc.proj r.side)] ++ es) s (s.passed sc i r j q) := by
  have h0 := ((((Acts.start (l := [.alc (sc.proj r.side), .alc (sc.proj q.side)]) (sc := sc) s).modShc
    (·.changeover i r j q)).unserve (p := sc.proj r.side) (by simp)).serve j q (by simp)).emit
    (.cueWindowClose (sc.proj r.side))
  exact h0.lightStep q (s.trm.get (sc.proj q.side)).count

theorem lightStep_frame (s : State) (n : Nat) : (s.lightStep sc q n).cnl = s.cnl ∧ (s.lightStep sc q n).alc = s.alc ∧
    (s.lightStep sc q n).bck = s.bck ∧ (s.lightStep sc q n).trm = s.trm := by
  unfold State.lightStep State.postPoint
  split <;> exact ⟨rfl, rfl, rfl, rfl⟩

/-- R66: the service records after a changeover. -/
theorem passed_service (s : State) (hq : q.side = r.side.other) :
    ((s.passed sc i r j q).alc.get (sc.proj r.side)).service = none ∧
      ((s.passed sc i r j q).alc.get (sc.proj q.side)).service =
        some (((s.shc.get sc).changeover i r j q).serviceOf sc j q) := by
  have hne : sc.proj r.side ≠ sc.proj q.side := by
    rw [hq]
    cases sc <;> cases r.side <;> decide
  unfold State.passed
  dsimp only
  rw [(lightStep_frame _ _).2.1]
  simp [State.unserve, State.serve, hne, hne.symm]

/-- R66: what a changeover leaves, its cue window opened. -/
theorem changeover_spec (ho : (s.shc.get sc).holding .onScreen = some (i, r))
    (ha : (s.shc.get sc).holding .armed = some (j, q)) (hq : q.side = r.side.other)
    (hu : ∀ k, ((s.shc.get sc).entry k).state = .onScreen → k = i)
    (hc : (s.trm.get (sc.proj q.side)).count < q.fm) (n : Nat) (how : FiredAs) :
    let t := s.changeover (State.openWindows sc (n + 1)) sc how i r j q
    (s.shc.get sc).Passed (t.shc.get sc) i r j q ∧
      (t.alc.get (sc.proj r.side)).service = none ∧
      (t.alc.get (sc.proj q.side)).service = some ⟨sc, (s.shc.get sc).active, j, q.title,
        (s.shc.get sc).runFrames j q, (s.shc.get sc).setup.f, false⟩ ∧
      .cueWindowClose (sc.proj r.side) ∈ t.events ∧ .cueWindowOpen (sc.proj q.side) .motor q.fm ∈ t.events ∧
      Told s.cnl t.cnl ⟨s.bck.time, .changeover sc true how none i r.title (s.trm.get (sc.proj r.side)).count (some j)
        q.title (s.trm.get (sc.proj q.side)).count
        (((s.trm.get (sc.proj q.side)).count : Int) - ((s.shc.get sc).setup.l0 : Int))⟩ := by
  obtain ⟨es, hacts⟩ := passed_acts s sc i r j q
  have hpassed := changeover_passed ho ha hq
  have hopen : State.openWindows sc (n + 1) (s.passed sc i r j q) =
      (s.passed sc i r j q).emit (.cueWindowOpen (sc.proj q.side) .motor q.fm) := by
    have htrm : (s.passed sc i r j q).trm.get (sc.proj q.side) = s.trm.get (sc.proj q.side) :=
      hacts.keeps (.trm (sc.proj q.side)) (by simp)
    exact openWindows_motor (by rw [hacts.shc]; exact changeover_onScreen ho ha hq hu)
      (by rw [hacts.shc]; exact hpassed.progress) (by rw [htrm]; exact hc) n
  have hset : ((s.shc.get sc).changeover i r j q).setup = (s.shc.get sc).setup := (Shc.Kept.changeover _ _ _ _ _).1
  have hactive : ((s.shc.get sc).changeover i r j q).active = (s.shc.get sc).active := by rw [changeover_record]
  have htime : (s.passed sc i r j q).bck = s.bck := hacts.keeps .bck (by simp)
  obtain ⟨hout, hin⟩ := passed_service (sc := sc) (i := i) (j := j) s hq
  intro t
  generalize hw : ((s.passed sc i r j q).emit (.cueWindowOpen (sc.proj q.side) .motor q.fm)).noteMade sc how i r
    (s.trm.get (sc.proj r.side)).count j q (s.trm.get (sc.proj q.side)).count = w
  have ht : t = w.evaluate sc := by rw [← hw, ← hopen]; rfl
  have harms : Arms sc w t := ht ▸ (Arms.refl w).evaluate
  have hmoves : Moves sc w t := ht ▸ (Moves.refl w).evaluate
  have hevents : w.events = s.events ++ ([.cueWindowClose (sc.proj r.side)] ++ es) ++
      [.cueWindowOpen (sc.proj q.side) .motor q.fm] := by rw [← hw, ← hacts.events]; rfl
  have hrec : w.shc.get sc = (s.shc.get sc).changeover i r j q := by rw [← hw, ← hacts.shc]; rfl
  have halc : w.alc = (s.passed sc i r j q).alc := by rw [← hw]; rfl
  refine ⟨hpassed.arms (hrec ▸ harms.record), ?_, ?_, hmoves.mem_events (by rw [hevents]; simp),
    hmoves.mem_events (by rw [hevents]; simp), ?_⟩
  · rw [harms.service, halc, hout]
  · rw [harms.service, halc, hin]
    unfold Shc.serviceOf Shc.runFrames
    rw [hset, hactive, next_congr (changeover_kind _)]
  · have htold := Told.of_noted hacts.noted ⟨s.bck.time, .changeover sc true how none i r.title
      (s.trm.get (sc.proj r.side)).count (some j) q.title (s.trm.get (sc.proj q.side)).count
      (((s.trm.get (sc.proj q.side)).count : Int) - ((s.shc.get sc).setup.l0 : Int))⟩
    refine Told.after ?_ hmoves.noted
    rw [← hw]
    simpa [State.noteMade, State.note, State.emit, hacts.shc, hset, htime] using htold

/-- R64, R66: the changeover cue that makes the changeover. -/
theorem changeoverCue_of_ready (hn : (s.shc.get sc).next i = .reel j q) (ha : ((s.shc.get sc).entry j).state = .armed)
    (hr : s.unready (sc.proj q.side) = none) : s.changeoverCue reopen sc how i r =
      (s.setProgress sc .changeoverFired).changeover reopen sc how i r j q := by
  rw [changeoverCue_of_armed hn ha, hr]

theorem Moves.seen {x : Instr} (h : Moves sc (s.taken x) t) : KeepsAllBut s t (screenParts sc) :=
  ((keeps_taken s x).mono (by simp [screenParts])).trans h.keeps

/-- Settles O38: the changeover of a cue and that of CHANGE NOW. -/
theorem changeoverPassesThePicture : Obligations.ChangeoverPassesThePicture := by
  intro p how count tag screen i j r q s sc c u nIn hst ho hside hu ha hq htrm halc hshut hveto hcount hs passed
  have hp : sc.proj r.side = p := by rw [hside]; exact screen_proj p
  have hq' : q.side = r.side.other := by rw [hside, hq]
  have hon : c.holdingOn .onScreen p.side = some (i, r) :=
    holdingOn_of_unique (Shc.holding_spec ho).2.1 (Shc.holding_spec ho).2.2 hu hside
  refine ⟨fun hn _ => ?_, ?_⟩
  · set x := Instr.cueFiredEvent p .changeover how count with hx
    have run : exec x s = _ := congrArg Host.Outcome.next (cueFired_of_showing (s := s.taken x) hst hon .changeover how)
    have hready := changeoverCue_of_ready (s := (s.taken x).emit (.cueWindowClose p))
      (reopen := State.openWindows sc cueFuel) (how := how) (r := r) (by exact hn) (Shc.holding_spec ha).2.2
      (unready_eq_none (by exact htrm) (by exact halc) (by exact hshut) (by exact hveto))
    generalize hy : ((s.taken x).emit (.cueWindowClose p)).setProgress sc .changeoverFired = y at hready
    have hrec : y.shc.get sc = { c with progress := .changeoverFired } := by rw [← hy, setProgress_shc]; rfl
    have hspec := changeover_spec (s := y) (i := i) (j := j) (r := r) (q := q) (by rw [hrec]; exact ho)
      (by rw [hrec]; exact ha) hq' (by rw [hrec]; exact hu) (by rw [← hy]; exact hcount) 7 how
    rw [hrec] at hspec
    obtain ⟨hpassed, hout, hin, hclose, hopen, before, after, htold⟩ := hspec
    have hkeep := (Moves.cueFired (p := p) (Moves.refl (s.taken x)) .changeover how).seen
    rw [cueFired_of_showing (s := s.taken x) hst hon] at hkeep
    refine ⟨_, run, hkeep, ?_⟩
    dsimp only
    rw [hready]
    obtain ⟨h1, h2, h3, h4, h5, h6, h7, h8, h9⟩ := hpassed
    refine ⟨h1.trans hst, h2, h3, h4, h5, h6, h7, h8, h9, hp ▸ hout, hin, hp ▸ hclose, hopen, before, after, _, rfl, ?_⟩
    rw [if_neg (by simp [hx])]
    have hsame : y.cnl = s.cnl ∧ y.bck = s.bck ∧ y.trm = s.trm := by rw [← hy]; exact ⟨rfl, rfl, rfl⟩
    rw [hsame.1, hsame.2.1, hsame.2.2, hp] at htold
    exact htold
  · set x := Instr.changeNow tag screen with hx
    have run : exec x s = _ := congrArg Host.Outcome.next (changeNow_armed (s := s.taken x) hs hst ho ha)
    rw [unready_eq_none (by exact htrm) (by exact halc) (by exact hshut) (by exact hveto)] at run
    obtain ⟨hpassed, hout, hin, hclose, hopen, before, after, htold⟩ := changeover_spec (s := s.taken x) ho ha hq' hu
      hcount 7 .console
    obtain ⟨hkeep, -⟩ := ((Moves.refl (s.taken x)).changeover (sc := sc) (State.openWindows sc cueFuel)
      (fun _ hv => hv.openWindows _) .console i r j q).answered 0x33 tag .done
    obtain ⟨h1, h2, h3, h4, h5, h6, h7, h8, h9⟩ := hpassed
    refine ⟨_, run, hkeep, h1.trans hst, h2, h3, h4, h5, h6, h7, h8, h9, hp ▸ hout, hin, hp ▸ hclose, hopen, before,
      after, _, rfl, ?_⟩
    rw [if_pos rfl]
    rw [hp] at htold
    exact congrArg (Cnl.fill · ⟨0xB3, tag, .done, none, []⟩) htold

end Sys2Proof.Machine
end

section
namespace Sys2Proof.Machine

variable {sc : Screen} {c d : Shc} {s t u : State} {p : Proj} {side : Side} {l : List Part}
  {es : List Instr} {i j n m : Nat} {r q : Reel} {how : FiredAs} {why : NotReady} {reopen : State → State}

/-! ## The motor cue (R59 to R62) -/

theorem motorCue_of_none (h : ((reopen (s.setProgress sc .motorFired)).shc.get sc).holding .armed = none) :
    s.motorCue reopen sc = reopen (s.setProgress sc .motorFired) := by
  simp only [State.motorCue, h]

/-- What follows an opening of windows at the motor cue changes the record by armings alone. -/
theorem motorCue_arms (s : State) (reopen : State → State) (sc : Screen) :
    Arms sc (reopen (s.setProgress sc .motorFired)) (s.motorCue reopen sc) ∧
      Moves sc (reopen (s.setProgress sc .motorFired)) (s.motorCue reopen sc) := by
  unfold State.motorCue
  dsimp only
  split
  · split
    · exact ⟨.refl _, .refl _⟩
    · exact ⟨(Arms.refl _).startIncoming _ _, (Moves.refl _).startIncoming _ _⟩
  · exact ⟨.refl _, .refl _⟩

/-- R60: the changeover cue window of the ON_SCREEN entry opened. -/
theorem openWindows_changeover (ho : (s.shc.get sc).holding .onScreen = some (i, r))
    (hp : (s.shc.get sc).progress = .motorFired)
    (hc : (s.trm.get (sc.proj r.side)).count < lastFrame (s.shc.get sc).setup.cueMode (s.shc.get sc).setup.w r.fc)
    (n : Nat) : State.openWindows sc (n + 1) s = s.emit (.cueWindowOpen (sc.proj r.side) .changeover r.fc) := by
  unfold State.openWindows
  simp only [ho, hp, hc, if_true]

/-- R60: the changeover cue is fired by the SHC when its window's last frame has been reached. -/
theorem openWindows_past (ho : (s.shc.get sc).holding .onScreen = some (i, r))
    (hp : (s.shc.get sc).progress = .motorFired)
    (hc : lastFrame (s.shc.get sc).setup.cueMode (s.shc.get sc).setup.w r.fc ≤ (s.trm.get (sc.proj r.side)).count)
    (n : Nat) : State.openWindows sc (n + 1) s =
      (s.noteCue (sc.proj r.side) .changeover .counted r.fc (s.trm.get (sc.proj r.side)).count).changeoverCue
        (State.openWindows sc n) sc .counted i r := by
  rw [State.openWindows]
  simp only [ho, hp, if_neg (Nat.not_lt.2 hc)]

/-! ### The strike of an incoming lamp (R59, R62) -/

theorem strikeIncoming_of_none (h : (s.alc.get (sc.proj q.side)).state.lit = false)
    (hr : s.strikeRefusal (sc.proj q.side) = none) (j : Nat) :
    s.strikeIncoming sc j q = s.beginStrike (sc.proj q.side) .struck := by
  unfold State.strikeIncoming
  dsimp only
  rw [if_neg (by simp [h]), askStrike_of_none hr]

theorem strikeIncoming_of_refusal {y : Result} (h : (s.alc.get (sc.proj q.side)).state.lit = false)
    (hr : s.strikeRefusal (sc.proj q.side) = some y) (hy : y ≠ .accepted) (j : Nat) :
    s.strikeIncoming sc j q = s.noteEntry sc (s.shc.get sc).active j q .strikeRefused ((s.shc.get sc).entry j).short
      (some (lampReason y)) := by
  unfold State.strikeIncoming
  dsimp only
  rw [if_neg (by simp [h]), askStrike_of_refusal hr]
  cases y <;> first | rfl | contradiction

theorem startIncoming_of_lit (h : (s.alc.get (sc.proj q.side)).state.lit = true) (j : Nat) :
    s.startIncoming sc j q = s.motorOn (sc.proj q.side) := if_pos h

theorem startIncoming_of_unlit (h : (s.alc.get (sc.proj q.side)).state.lit = false) (j : Nat) :
    s.startIncoming sc j q = ((s.motorOn (sc.proj q.side)).dropStrikeFrame sc).strikeIncoming sc j q :=
  if_neg (show ¬(s.alc.get (sc.proj q.side)).state.lit = true by simp [h])

/-- R99: why a strike of an unlit lamp is refused. -/
theorem strikeRefusal_of_why (hl : (s.alc.get p).state.lit = false)
    (hw : (why = .noTrim ∧ (s.alc.get p).remaining = 0) ∨
      (why = .exhaust ∧ (s.alc.get p).remaining ≠ 0 ∧ s.bsu.proven = false) ∨
      (why = .fireLock ∧ (s.alc.get p).remaining ≠ 0 ∧ s.bsu.proven = true ∧ s.bsu.fire.isSome = true)) :
    ∃ y, s.strikeRefusal p = some y ∧ y ≠ .accepted ∧ lampReason y = why := by
  obtain ⟨rfl, h1⟩ | ⟨rfl, h1, h2⟩ | ⟨rfl, h1, h2, h3⟩ := hw
  · exact ⟨_, strikeRefusal_of_no_trim hl h1, by simp, rfl⟩
  · exact ⟨_, strikeRefusal_of_unproven hl h1 h2, by simp, rfl⟩
  · have hfire : s.fireLatched = true := h3
    exact ⟨.fireLock, by simp [State.strikeRefusal, hl, h1, h2, hfire], by simp, rfl⟩

theorem lit_of_unlit {x : LampState} (h : x = .dark ∨ x = .failed) : x.lit = false := by
  obtain rfl | rfl := h <;> rfl

/-- R62: the motor command and the strike of an incoming whose lamp may be struck. -/
theorem Acts.startIncoming (h : Acts l sc c es s t) (hp : .alc (sc.proj q.side) ∈ l)
    (hl : (t.alc.get (sc.proj q.side)).state.lit = false) (hr : t.strikeRefusal (sc.proj q.side) = none) (j : Nat) :
    Acts l sc { c.setMotor q.side true with strikeFrame := none }
      (es ++ [.motorOnCommand (sc.proj q.side), .lampStateChange (sc.proj q.side) .striking
        (t.alc.get (sc.proj q.side)).state .struck]) s (t.startIncoming sc j q) ∧
      ((t.startIncoming sc j q).alc.get (sc.proj q.side)).state = .striking := by
  have hs := ((h.motorOn q.side).modShc fun c => { c with strikeFrame := none }).strike hp .struck
  rw [startIncoming_of_unlit hl, strikeIncoming_of_none (by exact hl) (by exact hr)]
  rw [List.append_assoc] at hs
  exact ⟨hs, beginStrike_striking _ _ _⟩

/-- R59, R62: the motor command of an incoming whose strike is refused. -/
theorem startIncoming_of_refused (hl : (s.alc.get (sc.proj q.side)).state.lit = false)
    (hw : (why = .noTrim ∧ (s.alc.get (sc.proj q.side)).remaining = 0) ∨
      (why = .exhaust ∧ (s.alc.get (sc.proj q.side)).remaining ≠ 0 ∧ s.bsu.proven = false) ∨
      (why = .fireLock ∧ (s.alc.get (sc.proj q.side)).remaining ≠ 0 ∧ s.bsu.proven = true ∧ s.bsu.fire.isSome = true))
    (j : Nat) : s.startIncoming sc j q = { s with
      events := s.events ++ [.motorOnCommand (sc.proj q.side)]
      shc := s.shc.set sc { (s.shc.get sc).setMotor q.side true with strikeFrame := none }
      cnl := s.cnl.raise ⟨s.bck.time, .entry sc (s.shc.get sc).active j (sc.proj q.side) q.title .strikeRefused
        ((s.shc.get sc).entry j).short (s.trm.get (sc.proj q.side)).count (some why)⟩ } := by
  obtain ⟨y, hy, hya, hyw⟩ := strikeRefusal_of_why hl hw
  rw [startIncoming_of_unlit hl, strikeIncoming_of_refusal (by exact hl) (by exact hy) hya, hyw]
  have hstate : (s.motorOn (sc.proj q.side)).dropStrikeFrame sc = { s with
      events := s.events ++ [.motorOnCommand (sc.proj q.side)]
      shc := s.shc.set sc { (s.shc.get sc).setMotor q.side true with strikeFrame := none } } := by
    simp [State.motorOn, State.dropStrikeFrame, State.modShc, State.emit, proj_screen, proj_side]
  have hactive : ({ (s.shc.get sc).setMotor q.side true with strikeFrame := none } : Shc).active =
      (s.shc.get sc).active := Shc.setMotor_active _ _
  have hentry : ({ (s.shc.get sc).setMotor q.side true with strikeFrame := none } : Shc).entry j =
      (s.shc.get sc).entry j := setMotor_entry _ _ _ _
  rw [hstate, Quad.get_set_self, hactive, hentry]
  rfl

/-- R62: the motor cue before the last frame of the changeover window, on `s` with the window opened. -/
def State.motorFired (s : State) (sc : Screen) (r : Reel) : State :=
  (s.setProgress sc .motorFired).emit (.cueWindowOpen (sc.proj r.side) .changeover r.fc)

theorem motorFired_shc (s : State) (r : Reel) :
    (s.motorFired sc r).shc.get sc = { s.shc.get sc with progress := .motorFired } := setProgress_shc s sc _

theorem motorCue_of_before (ho : (s.shc.get sc).holding .onScreen = some (i, r))
    (hc : (s.trm.get (sc.proj r.side)).count < lastFrame (s.shc.get sc).setup.cueMode (s.shc.get sc).setup.w r.fc) :
    s.motorCue (State.openWindows sc cueFuel) sc =
      match (s.shc.get sc).holding .armed with
      | some (j, q) => if (s.shc.get sc).motor q.side then s.motorFired sc r
        else (s.motorFired sc r).startIncoming sc j q
      | none => s.motorFired sc r := by
  have hopen : State.openWindows sc cueFuel (s.setProgress sc .motorFired) = s.motorFired sc r :=
    openWindows_changeover (by rw [setProgress_shc]; exact ho) (by rw [setProgress_shc])
      (by rw [setProgress_shc]; exact hc) 7
  have hrec := motorFired_shc (sc := sc) s r
  unfold State.motorCue
  dsimp only
  rw [hopen, hrec]
  rfl

theorem Acts.motorFired (h : Acts l sc d es s t) (r : Reel) : Acts l sc { d with progress := .motorFired }
    (es ++ [.cueWindowOpen (sc.proj r.side) .changeover r.fc]) s (t.motorFired sc r) :=
  (h.modShc fun c => { c with progress := .motorFired }).emit _

/-- R60, R62: the motor cue at or past the last frame of the changeover window: that cue is fired too. -/
def State.cuePast (s : State) (sc : Screen) (r : Reel) : State :=
  (s.setProgress sc .motorFired).noteCue (sc.proj r.side) .changeover .counted r.fc
    (s.trm.get (sc.proj r.side)).count

theorem cuePast_shc (s : State) (r : Reel) :
    (s.cuePast sc r).shc.get sc = { s.shc.get sc with progress := .motorFired } := setProgress_shc s sc _

theorem openWindows_of_past (ho : (s.shc.get sc).holding .onScreen = some (i, r))
    (hc : lastFrame (s.shc.get sc).setup.cueMode (s.shc.get sc).setup.w r.fc ≤ (s.trm.get (sc.proj r.side)).count) :
    State.openWindows sc cueFuel (s.setProgress sc .motorFired) =
      (s.cuePast sc r).changeoverCue (State.openWindows sc 7) sc .counted i r :=
  openWindows_past (by rw [setProgress_shc]; exact ho) (by rw [setProgress_shc]) (by rw [setProgress_shc]; exact hc) 7

/-- R62, R64: with no reel left ARMED, the motor cue ends as the changeover cue did. -/
theorem motorCue_of_past (ho : (s.shc.get sc).holding .onScreen = some (i, r))
    (hc : lastFrame (s.shc.get sc).setup.cueMode (s.shc.get sc).setup.w r.fc ≤ (s.trm.get (sc.proj r.side)).count)
    (hz : (s.cuePast sc r).changeoverCue (State.openWindows sc 7) sc .counted i r = t)
    (ha : (t.shc.get sc).holding .armed = none) : s.motorCue (State.openWindows sc cueFuel) sc = t := by
  have hopen := (openWindows_of_past ho hc).trans hz
  rw [motorCue_of_none (by rw [hopen, ha]), hopen]

/-- R62: the ARMED incoming started, its motor commanded on. -/
theorem motorFired_motorOn (s : State) (r q : Reel) : (s.motorFired sc r).motorOn (sc.proj q.side) = { s with
    events := s.events ++ [.cueWindowOpen (sc.proj r.side) .changeover r.fc, .motorOnCommand (sc.proj q.side)]
    shc := s.shc.set sc (({ s.shc.get sc with progress := .motorFired } : Shc).setMotor q.side true) } := by
  simp [State.motorFired, State.motorOn, State.setProgress, State.modShc, State.emit, proj_screen, proj_side]

theorem holding_eq_none {st : EntryState} (h : ∀ k, (c.entry k).state ≠ st) : c.holding st = none :=
  findReel_eq_none fun k _ _ hs => absurd hs (h k)

/-- R67: with the one ARMED entry stood down none is ARMED. -/
theorem stoodDown_holding (ha : c.holding .armed = some (j, q)) (hu : ∀ k, (c.entry k).state = .armed → k = j)
    (side : Side) : Shc.holding { (c.setMotor side false).modEntry c.active j (·.become .loaded) with
      strikeFrame := none } .armed = none := by
  have hlt := (Shc.holding_spec ha).1
  have hentry (k : Nat) : ((c.setMotor side false).modEntry c.active j (·.become .loaded)).entry k =
      (c.enter j .loaded).entry k := by
    unfold Shc.enter Shc.modEntry Shc.entry
    cases hb : c.active <;> cases side <;> simp [Shc.setMotor, Shc.setBank, Shc.bank, hb]
  refine holding_eq_none fun k hk => ?_
  replace hk : ((c.enter j .loaded).entry k).state = .armed := (congrArg Entry.state (hentry k)).symm.trans hk
  by_cases hkj : j = k
  · subst hkj
    rw [enter_entry_self hlt] at hk
    cases hk
  · rw [enter_entry_of_ne hkj] at hk
    exact hkj (hu k hk).symm

/-- Settles O37: the motor cue before the last frame of the changeover window, and at or past it. -/
theorem motorCueStartsTheIncoming : Obligations.MotorCueStartsTheIncoming := by
  intro p how count s x sc c
  refine ⟨fun i r hst ho hside hon hcount => ?_, fun i r hst ho hside hon hcount => ?_, fun h => ?_⟩
  · intro opened
    have hp : sc.proj r.side = p := by rw [hside]; exact screen_proj p
    have run : exec x s = _ :=
      congrArg Host.Outcome.next ((cueFired_of_showing (s := s.taken x) hst hon .motor how).trans
      (motorCue_of_before (s := (s.taken x).emit (.cueWindowClose p)) (r := r) ho (by rw [hp]; exact hcount)))
    have hz : ((s.taken x).emit (.cueWindowClose p)).motorFired sc r = { s with
        events := opened, shc := s.shc.set sc { c with progress := .motorFired } } := by
      simp only [State.motorFired, hp, State.setProgress, State.modShc, State.emit, State.taken, opened,
        List.append_assoc] <;> rfl
    refine ⟨fun ha => ?_, fun j q ha => ?_⟩
    · rw [show (((s.taken x).emit (.cueWindowClose p)).shc.get sc).holding .armed = none from ha] at run
      exact run.trans (congrArg Host.Outcome.next hz)
    rw [show (((s.taken x).emit (.cueWindowClose p)).shc.get sc).holding .armed = some (j, q) from ha] at run
    refine ⟨fun hm => ?_, fun hm => ?_⟩
    · exact run.trans (congrArg Host.Outcome.next ((if_pos hm).trans hz))
    · intro d u lamp
      have hstart : exec x s = .next ((((s.taken x).emit (.cueWindowClose p)).motorFired sc r).startIncoming sc j q) :=
        run.trans (congrArg Host.Outcome.next (if_neg (show ¬c.motor q.side = true by simp [hm])))
      have hon : (((s.taken x).emit (.cueWindowClose p)).motorFired sc r).motorOn u = { s with
          events := opened ++ [.motorOnCommand u], shc := s.shc.set sc d } := by
        refine (motorFired_motorOn _ r q).trans ?_
        simp only [hp, State.emit, State.taken, opened, List.append_assoc] <;> rfl
      refine ⟨fun hl => ?_, fun hl => ⟨fun hr hx hf => ?_, fun why hwhy => ?_⟩⟩
      · rw [startIncoming_of_lit (by exact hl)] at hstart
        exact hstart.trans (congrArg Host.Outcome.next hon)
      · have hacts := ((Acts.start (l := [.alc u]) (sc := sc) (s.taken x)).emit (.cueWindowClose p)).motorFired r
        obtain ⟨hstruck, hstriking⟩ := hacts.startIncoming (q := q) (by simp [u]) (lit_of_unlit hl)
          (strikeRefusal_eq_none (lit_of_unlit hl) hr hx hf) j
        obtain ⟨hkeep, -, hev⟩ := hstruck.taken
        exact ⟨_, hstart, hkeep, hev.trans (by
          rw [hp]
          simp only [opened, List.append_assoc, List.nil_append, List.cons_append] <;> rfl), hstruck.shc, hstriking⟩
      · rw [hz] at hstart
        refine (hstart.trans (congrArg Host.Outcome.next (startIncoming_of_refused (q := q)
          (by exact lit_of_unlit hl) (by exact hwhy) j))).trans ?_
        simp only [Quad.get_set_self, Quad.set_set] <;> rfl
  · intro nOut closed fired cue
    have hp : sc.proj r.side = p := by rw [hside]; exact screen_proj p
    have hcount' : lastFrame c.setup.cueMode c.setup.w r.fc ≤ (s.trm.get (sc.proj r.side)).count := by
      rw [hp]
      exact hcount
    have run : exec x s = _ := congrArg Host.Outcome.next (cueFired_of_showing (s := s.taken x) hst hon .motor how)
    generalize hy : (s.taken x).emit (.cueWindowClose p) = y at run
    have hyo : (y.shc.get sc).holding .onScreen = some (i, r) := by rw [← hy]; exact ho
    have hyc : lastFrame (y.shc.get sc).setup.cueMode (y.shc.get sc).setup.w r.fc ≤
        (y.trm.get (sc.proj r.side)).count := by rw [← hy]; exact hcount'
    have hyrec : (y.cuePast sc r).shc.get sc = { c with progress := .motorFired } := by
      rw [cuePast_shc, ← hy]
      rfl
    have hyeq : y.cuePast sc r = { s with
        events := closed, shc := s.shc.set sc { c with progress := .motorFired }, cnl := s.cnl.raise cue } := by
      rw [← hy]
      simp only [State.cuePast, hp] <;> rfl
    refine ⟨fun hn ha => ?_, fun j q hn ha hna => ?_, fun j q hn ha hu hst' => ?_⟩
    · have hz := changeoverCue_of_run_on (s := y.cuePast sc r) (r := r) (how := .counted)
        (reopen := State.openWindows sc 7) (by rw [hyrec]; exact hn)
      refine (run.trans (congrArg Host.Outcome.next (motorCue_of_past hyo hyc hz ?_))).trans
        (congrArg Host.Outcome.next ?_)
      · rw [setProgress_shc, hyrec]
        exact ha
      · rw [hyeq]
        simp only [State.setProgress, State.modShc, Quad.get_set_self, Quad.set_set] <;> rfl
    · have hz := changeoverCue_of_none (s := y.cuePast sc r) (r := r) (how := .counted)
        (reopen := State.openWindows sc 7) (by rw [hyrec]; exact hn) (by rw [hyrec]; exact ha)
      refine (run.trans (congrArg Host.Outcome.next (motorCue_of_past hyo hyc hz ?_))).trans
        (congrArg Host.Outcome.next ?_)
      · rw [Quad.get_set_self, hyrec]
        exact ha
      · rw [hyeq, hp]
        simp only [Quad.get_set_self, Quad.set_set] <;> rfl
    · intro u
      have hn' : (y.cuePast sc r |>.shc.get sc).next i = .reel j q := by rw [hyrec]; exact hn
      refine ⟨fun why hw => ?_, fun h1 h2 h3 h4 hq hon1 hfm => ?_⟩
      · have hz := changeoverCue_of_unready (s := y.cuePast sc r) (r := r) (how := .counted)
          (reopen := State.openWindows sc 7) hn' (by rw [hyrec]; exact ha)
          (unready_eq_some (by rw [hyeq]; exact hw))
        refine (run.trans (congrArg Host.Outcome.next (motorCue_of_past hyo hyc hz ?_))).trans
          (congrArg Host.Outcome.next ?_)
        · rw [Quad.get_set_self, hyrec]
          exact stoodDown_holding (c := { c with progress := .changeoverFired }) ha hu q.side
        · rw [hyeq, hp]
          simp only [Quad.get_set_self, Quad.set_set] <;> rfl
      · have hz := (openWindows_of_past hyo hyc).trans (changeoverCue_of_ready hn' (by rw [hyrec]; exact hst')
          (unready_eq_none (by rw [hyeq]; exact h1) (by rw [hyeq]; exact h2) (by rw [hyeq]; exact h3)
            (by rw [hyeq]; exact h4)))
        have hprog : ((y.cuePast sc r).setProgress sc .changeoverFired).shc.get sc =
            { c with progress := .changeoverFired } := by rw [setProgress_shc, hyrec]
        obtain ⟨hpassed, -, -, -, hopen, htold⟩ := changeover_spec (n := 6) (how := .counted)
          (s := (y.cuePast sc r).setProgress sc .changeoverFired) (i := i) (j := j) (r := r) (q := q)
          (by rw [hprog]; exact ho) (by rw [hprog]; exact ha) (by rw [hside, hq]) (by rw [hprog]; exact hon1)
          (by rw [hyeq]; exact hfm)
        obtain ⟨harms, hmoves⟩ := motorCue_arms y (State.openWindows sc cueFuel) sc
        rw [hz] at harms hmoves
        rw [hprog] at hpassed
        obtain ⟨g1, g2, g3, g4, g5, g6, g7, g8, g9⟩ := hpassed.arms harms.record
        have hkeep := (Moves.cueFired (p := p) (Moves.refl (s.taken x)) .motor how).seen
        rw [cueFired_of_showing (s := s.taken x) hst hon, hy] at hkeep
        refine ⟨_, run, hkeep, g1.trans hst, g2, g3, g4, g5, g6, g7, g8, g9, hmoves.mem_events hopen, ?_⟩
        have hsame : ((y.cuePast sc r).setProgress sc .changeoverFired).cnl = s.cnl.raise cue ∧
            ((y.cuePast sc r).setProgress sc .changeoverFired).bck = s.bck ∧
            ((y.cuePast sc r).setProgress sc .changeoverFired).trm = s.trm := by
          rw [hyeq]
          exact ⟨rfl, rfl, rfl⟩
        have htold' := htold.after hmoves.noted
        rw [hprog, hp, hsame.1, hsame.2.1, hsame.2.2] at htold'
        exact htold'
  · refine congrArg Host.Outcome.next ?_
    show cueFired p .motor how (s.taken x) = s.taken x
    unfold cueFired
    dsimp only
    split
    · next hshow hheld => exact absurd hshow (h.resolve_right (by rw [show c.holdingOn _ _ = _ from hheld]; nofun))
    · rfl

end Sys2Proof.Machine
end

section
namespace Sys2Proof.Machine

variable {sc : Screen} {c d : Shc} {s t u : State} {p : Proj} {side : Side} {l : List Part}
  {es : List Instr} {i j k w n : Nat} {r q : Reel} {st : EntryState}

/-! ## The picture end (R35 to R38, R44) -/

theorem setDouser_entry (c : Shc) (side : Side) (x : Bool) (k : Nat) : (c.setDouser side x).entry k = c.entry k := by
  cases side <;> rfl

theorem setDouser_length (c : Shc) (side : Side) (x : Bool) :
    ((c.setDouser side x).bank (c.setDouser side x).active).length = (c.bank c.active).length := by
  cases side <;> rfl

theorem enter_state (c : Shc) (i : Nat) (st : EntryState) : (c.enter i st).state = c.state := by rw [enter_record]
theorem enter_halt (c : Shc) (i : Nat) (st : EntryState) : (c.enter i st).halt = c.halt := by rw [enter_record]
theorem enter_muted (c : Shc) (i : Nat) (st : EntryState) : (c.enter i st).muted = c.muted := by rw [enter_record]
theorem enter_current (c : Shc) (i : Nat) (st : EntryState) : (c.enter i st).current = c.current := by rw [enter_record]
theorem enter_setup (c : Shc) (i : Nat) (st : EntryState) : (c.enter i st).setup = c.setup := by rw [enter_record]
theorem enter_douser (c : Shc) (i : Nat) (st : EntryState) (side : Side) :
    (c.enter i st).douser side = c.douser side := Shc.setBank_douser _ _ _

/-- R35: the record of a screen whose picture has ended. -/
def Shc.darkened (c : Shc) (i : Nat) (side : Side) : Shc :=
  { (c.setDouser side false).enter i .runningOut with muted := true }

theorem darkened_entry (c : Shc) (i : Nat) (side : Side) (k : Nat) :
    (c.darkened i side).entry k = (c.enter i .runningOut).entry k := by
  show ((c.setDouser side false).enter i .runningOut).entry k = _
  rw [enter_entry, enter_entry, setDouser_entry, setDouser_length]

theorem darkened_next (c : Shc) (i : Nat) (side : Side) (k : Nat) : (c.darkened i side).next k = c.next k :=
  next_congr (fun k => by rw [darkened_entry, enter_kind]) k

/-- R35: what a picture end leaves of the record. -/
structure Shc.Darkened (c d : Shc) (i : Nat) (side : Side) : Prop where
  closed : d.douser side = false
  muted : d.muted = true
  entry : (d.entry i).state = .runningOut
  halt : d.halt = c.halt

theorem darkened_spec (hi : i < (c.bank c.active).length) (side : Side) : c.Darkened (c.darkened i side) i side where
  closed := (enter_douser _ _ _ _).trans (Shc.setDouser_self _ _)
  muted := rfl
  entry := by
    rw [darkened_entry, enter_entry_self hi]
    rfl
  halt := (enter_halt _ _ _).trans (by cases side <;> rfl)

theorem Shc.Darkened.stirs {e : Shc} (h : c.Darkened d i side) (k : d.Stirs e) : c.Darkened e i side where
  closed := (k.douser side).trans h.closed
  muted := k.muted.trans h.muted
  entry := by rw [k.entry i (by simp [h.entry]) (by simp [h.entry]), h.entry]
  halt := k.halt.trans h.halt

/-- R35: the picture end, before the screen goes on. -/
def State.darkened (s : State) (sc : Screen) (i : Nat) (r : Reel) : State :=
  ((s.modShc sc (·.darkened i r.side)).unserve (sc.proj r.side)).emit (.cueWindowClose (sc.proj r.side))

theorem endPicture_eq (s : State) (sc : Screen) (i : Nat) (r : Reel) :
    s.endPicture sc i r = (s.darkened sc i r).afterPicture sc := rfl

theorem darkened_shc (s : State) (sc : Screen) (i : Nat) (r : Reel) :
    (s.darkened sc i r).shc.get sc = (s.shc.get sc).darkened i r.side := by
  simp [State.darkened, State.unserve]

theorem darkened_service (s : State) (sc : Screen) (i : Nat) (r : Reel) :
    ((s.darkened sc i r).alc.get (sc.proj r.side)).service = none := by
  simp [State.darkened, State.unserve]

theorem afterPicture_of_interval (h : (s.shc.get sc).next (s.shc.get sc).current = .interval j w n) :
    s.afterPicture sc = s.enterInterval sc j w n .pictureEnd := by
  simp only [State.afterPicture, h, State.noteFault]

theorem afterPicture_of_finish (h : (s.shc.get sc).next (s.shc.get sc).current = .finish) :
    s.afterPicture sc = s.enterEnding sc .pictureEnd := by
  simp only [State.afterPicture, h, State.noteFault]

theorem afterPicture_of_gap (h : (∃ j q, (s.shc.get sc).next (s.shc.get sc).current = .reel j q) ∨
      (∃ j f, (s.shc.get sc).next (s.shc.get sc).current = .fault j f)) :
    s.afterPicture sc = (s.noteFault sc ((s.shc.get sc).current + 1)
      ((s.shc.get sc).next (s.shc.get sc).current)).enterGap sc .pictureEnd := by
  obtain ⟨j, q, h⟩ | ⟨j, f, h⟩ := h <;> simp only [State.afterPicture, h]

/-- R36: an interval entered after a picture end. -/
theorem inInterval_stirs_entry (hj : (c.entry j).kind = .interval w n) (hk : (c.entry k).kind = .reel r) :
    (c.inInterval j w).entry k = c.entry k := by
  have hne : j ≠ k := by
    rintro rfl
    rw [hj] at hk
    cases hk
  exact enter_entry_of_ne hne .active

theorem Shc.Darkened.inInterval (h : c.Darkened d i side) (hj : (d.entry j).kind = .interval w n)
    (hk : (d.entry i).kind = .reel r) : c.Darkened (d.inInterval j w) i side where
  closed := (enter_douser _ _ _ _).trans h.closed
  muted := (enter_muted _ _ _).trans h.muted
  entry := by rw [inInterval_stirs_entry hj hk, h.entry]
  halt := (enter_halt _ _ _).trans h.halt

theorem darkened_current (c : Shc) (i : Nat) (side : Side) : (c.darkened i side).current = c.current :=
  (enter_current _ _ _).trans (by cases side <;> rfl)

theorem darkened_setup (c : Shc) (i : Nat) (side : Side) : (c.darkened i side).setup = c.setup :=
  (enter_setup _ _ _).trans (by cases side <;> rfl)

theorem darkened_goes_on (s : State) (sc : Screen) (i : Nat) (r : Reel) :
    ((s.darkened sc i r).shc.get sc).next ((s.darkened sc i r).shc.get sc).current =
      (s.shc.get sc).next (s.shc.get sc).current := by
  rw [darkened_shc, darkened_current, darkened_next]

/-- R36: a picture end before an INTERVAL. -/
theorem endPicture_of_interval (hi : (s.shc.get sc).holdingOn .onScreen r.side = some (i, r))
    (hn : (s.shc.get sc).next (s.shc.get sc).current = .interval j w n) :
    (s.shc.get sc).Darkened ((s.endPicture sc i r).shc.get sc) i r.side ∧
      ((s.endPicture sc i r).alc.get (sc.proj r.side)).service = none ∧
      ((s.endPicture sc i r).shc.get sc).state = .interval ∧ ((s.endPicture sc i r).shc.get sc).current = j ∧
      ((s.endPicture sc i r).shc.get sc).countdown = w ∧
      (((s.endPicture sc i r).shc.get sc).entry j).state = .active ∧
      .post sc .show_ n ∈ (s.endPicture sc i r).events := by
  obtain ⟨hlt, hkind, -, -⟩ := Shc.holdingOn_spec hi
  have hj : (((s.darkened sc i r).shc.get sc).entry j).kind = .interval w n := by
    rw [darkened_shc, darkened_entry, enter_kind]
    exact kind_of_next_interval hn
  have hk : (((s.darkened sc i r).shc.get sc).entry i).kind = .reel r := by
    rw [darkened_shc, darkened_entry, enter_kind]
    exact hkind
  rw [endPicture_eq, afterPicture_of_interval ((darkened_goes_on s sc i r).trans hn)]
  obtain ⟨harms, hs, -⟩ := enterInterval_spec (s.darkened sc i r) sc j w n .pictureEnd
  have hd : (s.shc.get sc).Darkened ((s.darkened sc i r).shc.get sc) i r.side :=
    darkened_shc s sc i r ▸ darkened_spec hlt r.side
  exact ⟨(hd.inInterval hj hk).stirs harms.stirs, (hs _).trans (darkened_service s sc i r),
    enterInterval_state hj .pictureEnd⟩

/-- R37: a picture end before END. -/
theorem endPicture_of_finish (hi : (s.shc.get sc).holdingOn .onScreen r.side = some (i, r))
    (hn : (s.shc.get sc).next (s.shc.get sc).current = .finish) :
    (s.shc.get sc).Darkened ((s.endPicture sc i r).shc.get sc) i r.side ∧
      ((s.endPicture sc i r).alc.get (sc.proj r.side)).service = none ∧
      ((s.endPicture sc i r).shc.get sc).state = .ending ∧
      ((s.endPicture sc i r).shc.get sc).current = (s.shc.get sc).current ∧
      .post sc .show_ (s.shc.get sc).setup.fin ∈ (s.endPicture sc i r).events := by
  have hd := darkened_spec (Shc.holdingOn_spec hi).1 r.side
  have hacts := enterEnding_eq (s.darkened sc i r) sc .pictureEnd
  rw [endPicture_eq, afterPicture_of_finish ((darkened_goes_on s sc i r).trans hn), hacts.shc, hacts.alc, hacts.events,
    darkened_shc, darkened_setup]
  exact ⟨⟨hd.closed, hd.muted, hd.entry, hd.halt⟩, darkened_service s sc i r, rfl, darkened_current _ _ _, by simp⟩

/-- R38: a picture end before a reel or a programme fault. -/
theorem endPicture_of_gap (hi : (s.shc.get sc).holdingOn .onScreen r.side = some (i, r))
    (hn : (∃ j q, (s.shc.get sc).next (s.shc.get sc).current = .reel j q) ∨
      (∃ j f, (s.shc.get sc).next (s.shc.get sc).current = .fault j f)) :
    (s.shc.get sc).Darkened ((s.endPicture sc i r).shc.get sc) i r.side ∧
      ((s.endPicture sc i r).alc.get (sc.proj r.side)).service = none ∧
      ((s.endPicture sc i r).shc.get sc).state = .gap ∧
      ((s.endPicture sc i r).shc.get sc).current = (s.shc.get sc).current ∧
      .post sc .halt (s.shc.get sc).setup.brk ∈ (s.endPicture sc i r).events := by
  have hd := darkened_spec (Shc.holdingOn_spec hi).1 r.side
  rw [endPicture_eq, afterPicture_of_gap (by rw [darkened_goes_on]; exact hn)]
  generalize hu : (s.darkened sc i r).noteFault sc (((s.darkened sc i r).shc.get sc).current + 1)
    (((s.darkened sc i r).shc.get sc).next ((s.darkened sc i r).shc.get sc).current) = u
  have hshc : u.shc.get sc = (s.shc.get sc).darkened i r.side := by rw [← hu, noteFault_shc, darkened_shc]
  have halc : (u.alc.get (sc.proj r.side)).service = none := by
    rw [← hu, (noteFault_machines _ _ _).1, darkened_service]
  obtain ⟨hstirs, hs, hpost⟩ := enterGap_spec u sc .pictureEnd
  rw [hshc] at hstirs hpost
  have hgap : (s.shc.get sc).Darkened { (s.shc.get sc).darkened i r.side with state := .gap } i r.side :=
    ⟨hd.closed, hd.muted, hd.entry, hd.halt⟩
  exact ⟨hgap.stirs hstirs, (hs _).trans halc, hstirs.state, hstirs.current.trans (darkened_current _ _ _),
    darkened_setup (s.shc.get sc) i r.side ▸ hpost⟩

/-! ### The picture end of a held reel (R44) -/

theorem pictureEnded_of_none (h : (s.shc.get p.screen).holdingOn .onScreen p.side = none) : pictureEnded p s = s := by
  simp only [pictureEnded, h]

/-- R35: the picture end of a picture that is shown, or is resumed. -/
theorem pictureEnded_of_shown (h : (s.shc.get p.screen).holdingOn .onScreen p.side = some (i, r))
    (hs : (s.shc.get p.screen).state = .showing ∨
      ((s.shc.get p.screen).state = .preparing ∧ (s.shc.get p.screen).prep = .resume)) :
    pictureEnded p s = s.endPicture p.screen i r := by
  obtain hs | ⟨hs, hk⟩ := hs
  · simp only [pictureEnded, h, hs]
  · simp only [pictureEnded, h, hs, hk]

theorem pictureEnded_of_held (h : (s.shc.get p.screen).holdingOn .onScreen p.side = some (i, r))
    (hs : (s.shc.get p.screen).state = .halted) : pictureEnded p s = s.endHeld p.screen i r := by
  simp only [pictureEnded, h, hs]

theorem pictureEnded_of_other (hs : (s.shc.get p.screen).state = .idle ∨ (s.shc.get p.screen).state = .ending ∨
      (s.shc.get p.screen).state = .interval ∨ (s.shc.get p.screen).state = .gap ∨
      ((s.shc.get p.screen).state = .preparing ∧ (s.shc.get p.screen).prep ≠ .resume)) : pictureEnded p s = s := by
  unfold pictureEnded
  dsimp only
  split
  · rfl
  · obtain hs | hs | hs | hs | ⟨hs, hk⟩ := hs
    · simp only [hs]
    · simp only [hs]
    · simp only [hs]
    · simp only [hs]
    · rw [hs]
      generalize (s.shc.get p.screen).prep = k at hk ⊢
      cases k
      · rfl
      · rfl
      · exact absurd rfl hk

theorem holdingOn_eq_none (h : ∀ k r, (c.entry k).kind = .reel r → r.side = side → (c.entry k).state ≠ st) :
    c.holdingOn st side = none :=
  findReel_eq_none fun k r hk hs => by simpa using fun hside => h k r hk hside hs

theorem enter_holdingOn_none {st' : EntryState} (h : c.holdingOn st side = none) (hne : st' ≠ st) (i : Nat) :
    (c.enter i st').holdingOn st side = none := by
  refine holdingOn_eq_none fun k r hk hside hs => ?_
  rw [enter_kind] at hk
  rw [enter_entry] at hs
  split at hs
  · exact hne hs
  · exact Shc.not_of_holdingOn_none h hk hside hs

theorem shcExtinguish_service (s : State) (p q : Proj) :
    ((s.shcExtinguish p).alc.get q).service = (s.alc.get q).service := by
  unfold State.shcExtinguish
  by_cases hq : q = p
  · subst hq
    by_cases hd : (s.alc.get q).state = .dark
    · rw [putOut_of_dark hd]
    · rw [putOut_of_not_dark hd, (lampChange_spec _ _ _ _).1]
      rfl
  · exact congrArg Alc.service ((putOut_spec s p _).2.2 (.alc q) (by simpa using hq))

/-- R44: the record of a screen whose held picture has ended. -/
def Shc.heldEnd (c : Shc) (i : Nat) : Shc :=
  { c.enter i .done with halt := c.halt.map fun h => { h with point := .after } }

/-- R44, R71: the picture end of a held reel puts its lamp out. -/
theorem endHeld_spec (ha : (s.shc.get sc).holdingOn .armed r.side = none) :
    (∃ es, Acts [.alc (sc.proj r.side)] sc ((s.shc.get sc).heldEnd i) es s (s.endHeld sc i r)) ∧
      ((s.endHeld sc i r).alc.get (sc.proj r.side)).state = .dark ∧
      ((s.endHeld sc i r).alc.get (sc.proj r.side)).service = none := by
  have h0 := ((Acts.start (l := [.alc (sc.proj r.side)]) (sc := sc) s).modShc (·.heldEnd i)).unserve
    (p := sc.proj r.side) (by simp)
  obtain ⟨es, h1⟩ := h0.runoutLamp (p := sc.proj r.side) (by simp)
  have hnone : (((s.modShc sc (·.heldEnd i)).unserve (sc.proj r.side)).shc.get (sc.proj r.side).screen).holdingOn .armed
      (sc.proj r.side).side = none := by
    rw [proj_screen, proj_side, h0.shc]
    exact enter_holdingOn_none ha (by simp) i
  refine ⟨⟨es, h1⟩, runoutLamp_dark hnone, ?_⟩
  show (((((s.modShc sc (·.heldEnd i)).unserve (sc.proj r.side)).runoutLamp (sc.proj r.side)).alc.get _).service) = none
  unfold State.runoutLamp
  rw [if_neg (by rw [hnone]; nofun), shcExtinguish_service]
  simp [State.unserve]

/-- Settles O32: a picture end in SHOWING or PREPARING kind RESUME by what comes next, in HALTED, and elsewhere. -/
theorem pictureEndLeadsOn : Obligations.PictureEndLeadsOn := by
  intro p count s x sc c
  refine ⟨fun i r ho => ?_, fun h => congrArg Host.Outcome.next ?_⟩
  · obtain ⟨hlt, hkind, hst, hside⟩ := Shc.holdingOn_spec ho
    have hp : sc.proj r.side = p := by rw [hside]; exact screen_proj p
    rw [← hside] at ho
    refine ⟨fun hs => ?_, fun hs ha => ?_⟩
    · have hmoves := Moves.pictureEnded (p := p) (Moves.refl (s.taken x))
      have hrun := pictureEnded_of_shown (s := s.taken x) (p := p) (hside ▸ ho) hs
      rw [hrun] at hmoves
      refine ⟨_, congrArg Host.Outcome.next hrun, hmoves.seen, hmoves.noted, ?_⟩
      cases hn : c.next c.current with
      | interval j w q =>
        have hend := endPicture_of_interval (s := s.taken x) ho hn
        rw [hp, hside] at hend
        obtain ⟨⟨h1, h2, h3, h4⟩, h5, h6, h7, h8, h9, h10⟩ := hend
        refine ⟨h1, h2, h3, h4, h5, fun j' w' q' he => ?_, nofun, by simp⟩
        obtain ⟨rfl, rfl, rfl⟩ := Resolved.interval.inj he
        exact ⟨h6, h7, h8, h9, h10⟩
      | finish =>
        have hend := endPicture_of_finish (s := s.taken x) ho hn
        rw [hp, hside] at hend
        obtain ⟨⟨h1, h2, h3, h4⟩, h5, h6⟩ := hend
        exact ⟨h1, h2, h3, h4, h5, nofun, fun _ => h6, by simp⟩
      | reel j q =>
        have hend := endPicture_of_gap (s := s.taken x) ho (.inl ⟨j, q, hn⟩)
        rw [hp, hside] at hend
        obtain ⟨⟨h1, h2, h3, h4⟩, h5, h6⟩ := hend
        exact ⟨h1, h2, h3, h4, h5, nofun, nofun, fun _ => h6⟩
      | fault j f =>
        have hend := endPicture_of_gap (s := s.taken x) ho (.inr ⟨j, f, hn⟩)
        rw [hp, hside] at hend
        obtain ⟨⟨h1, h2, h3, h4⟩, h5, h6⟩ := hend
        exact ⟨h1, h2, h3, h4, h5, nofun, nofun, fun _ => h6⟩
    · obtain ⟨⟨es, hacts⟩, hdark, hserv⟩ := endHeld_spec (s := s.taken x) (sc := sc) (i := i) (r := r)
        (hside ▸ ha)
      have hrun := pictureEnded_of_held (s := s.taken x) (p := p) (hside ▸ ho) hs
      rw [hp] at hacts hdark hserv
      exact ⟨_, congrArg Host.Outcome.next hrun, hacts.taken.1, hdark, hserv, hacts.shc⟩
  · show pictureEnded p (s.taken x) = s.taken x
    obtain hn | hs := h
    · exact pictureEnded_of_none hn
    · exact pictureEnded_of_other hs

end Sys2Proof.Machine
end

section
namespace Sys2Proof.Machine

variable {sc : Screen} {c d : Shc} {s t u : State} {p : Proj} {side : Side} {l : List Part}
  {es : List Instr} {i j k w n : Nat} {r q : Reel} {st : EntryState}

/-! ## The runout (R70, R71) -/

/-- R70: the record of a screen whose tail has run out. -/
def Shc.ranOut (c : Shc) (side : Side) (i : Nat) : Shc := (c.setMotor side false).enter i .done

theorem ranOut_eq (c : Shc) (side : Side) (i : Nat) :
    c.ranOut side i = (c.setMotor side false).modEntry c.active i (·.become .done) := by
  unfold Shc.ranOut Shc.enter
  rw [Shc.setMotor_active]

theorem setMotor_state (c : Shc) (side : Side) (on : Bool) : (c.setMotor side on).state = c.state := by
  cases side <;> rfl
theorem setMotor_current (c : Shc) (side : Side) (on : Bool) : (c.setMotor side on).current = c.current := by
  cases side <;> rfl
theorem setMotor_switch (c : Shc) (side : Side) (on : Bool) : (c.setMotor side on).switch = c.switch := by
  cases side <;> rfl
theorem setMotor_length (c : Shc) (side : Side) (on : Bool) :
    ((c.setMotor side on).bank (c.setMotor side on).active).length = (c.bank c.active).length := by
  cases side <;> rfl

theorem ranOut_state (c : Shc) (side : Side) (i : Nat) : (c.ranOut side i).state = c.state :=
  (enter_state _ _ _).trans (setMotor_state _ _ _)

theorem ranOut_current (c : Shc) (side : Side) (i : Nat) : (c.ranOut side i).current = c.current :=
  (enter_current _ _ _).trans (setMotor_current _ _ _)

theorem ranOut_entry (c : Shc) (side : Side) (i k : Nat) : (c.ranOut side i).entry k = (c.enter i .done).entry k := by
  show ((c.setMotor side false).enter i .done).entry k = _
  rw [enter_entry, enter_entry, setMotor_entry, setMotor_length]

theorem ranOut_kind (c : Shc) (side : Side) (i k : Nat) : ((c.ranOut side i).entry k).kind = (c.entry k).kind := by
  rw [ranOut_entry, enter_kind]

/-- R70, R71: a tail that has run out, its lamp seen to. -/
def State.ranOut (s : State) (p : Proj) (i : Nat) (r : Reel) : State :=
  (((s.motorOff p).modShc p.screen (·.enter i .done)).noteEntry p.screen (s.shc.get p.screen).active i r .done false
    none).runoutLamp p

theorem ranOut_acts (s : State) (p : Proj) (i : Nat) (r : Reel) :
    ∃ es, Acts [.alc p] p.screen ((s.shc.get p.screen).ranOut p.side i) ([.motorStop p] ++ es) s (s.ranOut p i r) := by
  have h0 := (((Acts.start (l := [.alc p]) (sc := p.screen) s).motorOff p.side).modShc (·.enter i .done)).noteEntry
    (s.shc.get p.screen).active i r .done false none
  rw [screen_proj] at h0
  exact h0.runoutLamp (by simp)

/-- R71: with no reel ARMED on the projector its lamp is put out. -/
theorem ranOut_dark (h : (s.shc.get p.screen).holdingOn .armed p.side = none) :
    ((s.ranOut p i r).alc.get p).state = .dark := by
  refine runoutLamp_dark ?_
  have h0 := (((Acts.start (l := []) (sc := p.screen) s).motorOff p.side).modShc (·.enter i .done)).noteEntry
    (s.shc.get p.screen).active i r .done false none
  rw [screen_proj] at h0
  rw [h0.shc]
  refine enter_holdingOn_none ?_ (by simp) i
  rwa [show ((s.shc.get p.screen).setMotor p.side false).holdingOn .armed p.side =
    (s.shc.get p.screen).holdingOn .armed p.side by cases p.side <;> rfl]

theorem runOut_eq (s : State) (p : Proj) (i : Nat) (r : Reel) : s.runOut p i r =
    match ((s.ranOut p i r).shc.get p.screen).state with
    | .ending =>
      if ((s.ranOut p i r).shc.get p.screen).endsEnding i then (s.ranOut p i r).endPerformance p.screen
      else s.ranOut p i r
    | .showing => (s.ranOut p i r).evaluate p.screen
    | .interval => (s.ranOut p i r).evaluate p.screen
    | .gap => (s.ranOut p i r).evaluate p.screen
    | _ => s.ranOut p i r := rfl

theorem ranOut_screen (s : State) (p : Proj) (i : Nat) (r : Reel) :
    (s.ranOut p i r).shc.get p.screen = (s.shc.get p.screen).ranOut p.side i := by
  obtain ⟨es, h⟩ := ranOut_acts s p i r
  exact h.shc

theorem runOut_of_quiet (h : (s.shc.get p.screen).state = .idle ∨ (s.shc.get p.screen).state = .preparing ∨
      (s.shc.get p.screen).state = .halted) : s.runOut p i r = s.ranOut p i r := by
  rw [runOut_eq, ranOut_screen, ranOut_state]
  obtain h | h | h := h <;> rw [h]

theorem runOut_of_evaluated (h : (s.shc.get p.screen).state = .showing ∨ (s.shc.get p.screen).state = .interval ∨
      (s.shc.get p.screen).state = .gap) : s.runOut p i r = (s.ranOut p i r).evaluate p.screen := by
  rw [runOut_eq, ranOut_screen, ranOut_state]
  obtain h | h | h := h <;> rw [h]

/-- R37, R40: the runout that ends a performance in ENDING. -/
def Shc.LastTail (c : Shc) (i : Nat) : Prop :=
  ((∃ q, (c.entry c.current).kind = .reel q) ∧ c.current = i) ∨
    ((∀ q, (c.entry c.current).kind ≠ .reel q) ∧
      ∀ k q, (c.entry k).kind = .reel q → (c.entry k).state = .runningOut → k = i)

theorem ranOut_endsEnding (c : Shc) (side : Side) (hi : i < (c.bank c.active).length) :
    (c.ranOut side i).endsEnding i = true ↔ c.LastTail i := by
  have hcur : ((c.ranOut side i).entry (c.ranOut side i).current).kind = (c.entry c.current).kind := by
    rw [ranOut_current, ranOut_kind]
  unfold Shc.endsEnding Shc.LastTail
  rw [hcur, ranOut_current]
  have hnone : ((c.ranOut side i).holding .runningOut).isNone = true ↔
      ∀ k q, (c.entry k).kind = .reel q → (c.entry k).state = .runningOut → k = i := by
    rw [Option.isNone_iff_eq_none]
    refine ⟨fun h k q hk hs => ?_, fun h => findReel_eq_none fun k q hk hs => ?_⟩
    · by_contra hne
      refine Shc.not_of_holding_none h ((ranOut_kind c side i k).trans hk) ?_
      rw [ranOut_entry, enter_entry_of_ne (Ne.symm hne), hs]
    · change ((c.ranOut side i).entry k).kind = _ at hk
      change ((c.ranOut side i).entry k).state = _ at hs
      rw [ranOut_kind] at hk
      rw [ranOut_entry] at hs
      by_cases hne : i = k
      · subst hne
        rw [enter_entry_self hi] at hs
        cases hs
      · rw [enter_entry_of_ne hne] at hs
        exact absurd (h k q hk hs).symm hne
  cases hk : (c.entry c.current).kind with
  | reel q => simp
  | empty => simpa using hnone
  | interval d q => simpa using hnone
  | link x => simpa using hnone
  | finish => simpa using hnone

theorem runOut_of_tail (h : (s.shc.get p.screen).state = .ending)
    (hi : i < ((s.shc.get p.screen).bank (s.shc.get p.screen).active).length)
    (hl : ¬(s.shc.get p.screen).LastTail i) : s.runOut p i r = s.ranOut p i r := by
  rw [runOut_eq, ranOut_screen, ranOut_state, h]
  exact if_neg fun x => hl ((ranOut_endsEnding _ _ hi).1 x)

theorem runOut_of_last (h : (s.shc.get p.screen).state = .ending)
    (hi : i < ((s.shc.get p.screen).bank (s.shc.get p.screen).active).length)
    (hl : (s.shc.get p.screen).LastTail i) : s.runOut p i r = (s.ranOut p i r).endPerformance p.screen := by
  rw [runOut_eq, ranOut_screen, ranOut_state, h]
  exact if_pos ((ranOut_endsEnding _ _ hi).2 hl)

theorem endPerformance_of_none (h : (s.shc.get sc).switch = none) :
    (s.endPerformance sc).shc.get sc = (s.shc.get sc).ended := by
  have hrec : (s.ended sc).shc.get sc = (s.shc.get sc).ended := ((Acts.start (l := []) s).ended).shc
  have hswitch : (s.shc.get sc).ended.switch = none := by
    simpa [Shc.ended, Shc.idle, Shc.mapActive] using h
  rw [endPerformance_eq, testSwitch_of_none (by rw [hrec, hswitch]), hrec]

theorem ranOut_switch (c : Shc) (side : Side) (i : Nat) : (c.ranOut side i).switch = c.switch :=
  (Shc.setBank_switch _ _ _).trans (setMotor_switch _ _ _)

theorem endPerformance_alc (s : State) (sc : Screen) : (s.endPerformance sc).alc = s.alc := by
  rw [endPerformance_eq]
  have hswitch (v : State) (now : Nat) : (v.testSwitch sc now).alc = v.alc := by
    unfold State.testSwitch
    dsimp only
    split
    · rfl
    · split
      · unfold State.takeSwitch State.skip
        dsimp only
        split <;> rfl
      · rfl
  exact hswitch _ _

theorem runoutSeen_of_some (h : (s.shc.get p.screen).holdingOn .runningOut p.side = some (i, r)) :
    runoutSeen p s = s.runOut p i r := by
  simp only [runoutSeen, h]

theorem runoutSeen_of_none (h : (s.shc.get p.screen).holdingOn .runningOut p.side = none) : runoutSeen p s = s := by
  simp only [runoutSeen, h]

/-- R37: the record of a performance that the last runout has ended. -/
theorem ranOut_ended (c : Shc) (side : Side) (i : Nat) : (c.ranOut side i).ended =
    { (c.setMotor side false).setBank c.active
        (((c.bank c.active).modify i fun e => { e with state := .done, short := false }).map fun e =>
          match e.kind with
          | .interval _ _ => if e.state = .done then { e with state := .loaded, short := false } else e
          | _ => e) with
      state := .idle, perfCount := min 65535 (c.perfCount + 1), progress := .none, strikeFrame := none,
      trimHold := none } := by
  have hentry : Entry.rewindInterval = fun e =>
      match e.kind with
      | .interval _ _ => if e.state = .done then { e with state := .loaded, short := false } else e
      | _ => e := by
    funext e
    obtain ⟨kind, state, short⟩ := e
    cases kind <;> rfl
  rw [← hentry]
  cases hb : c.active <;> cases side <;>
    simp [Shc.ended, Shc.ranOut, Shc.enter, Shc.modEntry, Shc.mapActive, Shc.idle, Shc.setMotor, Shc.setBank, Shc.bank,
      satSucc, hb, Entry.become]

/-- Settles O33: the tail that runs out, by the state of its screen. -/
theorem runoutEndsTheTail : Obligations.RunoutEndsTheTail := by
  intro p count s x sc c
  refine ⟨fun i r ho => ?_, fun ho => congrArg Host.Outcome.next (runoutSeen_of_none (s := s.taken x) ho)⟩
  obtain ⟨hlt, hkind, hst, hside⟩ := Shc.holdingOn_spec ho
  have hmoves := Moves.runoutSeen (p := p) (Moves.refl (s.taken x))
  have run : exec x s = _ := congrArg Host.Outcome.next (runoutSeen_of_some (s := s.taken x) ho)
  rw [runoutSeen_of_some (s := s.taken x) ho] at hmoves
  obtain ⟨es, hacts⟩ := ranOut_acts (s.taken x) p i r
  have hstop : .motorStop p ∈ ((s.taken x).ranOut p i r).events := by
    rw [hacts.events]
    simp
  have hdark : c.holdingOn .armed p.side = none → (((s.taken x).ranOut p i r).alc.get p).state = .dark :=
    ranOut_dark (s := s.taken x)
  have hrec : ((s.taken x).ranOut p i r).shc.get sc = c.ranOut p.side i := hacts.shc
  have hdone : ((c.ranOut p.side i).entry i).state = .done := by
    rw [ranOut_entry, enter_entry_self hlt]
    rfl
  refine ⟨_, run, hmoves.seen, hmoves.noted, ?_⟩
  by_cases hend : c.state = .ending
  · by_cases hlast : c.LastTail i
    · rw [runOut_of_last (s := s.taken x) hend hlt hlast]
      refine ⟨(Moves.refl _).endPerformance.mem_events hstop, fun ha _ => ?_, ⟨fun _ hn => absurd hlast hn,
        fun _ _ hsw => ?_⟩, fun hn => absurd hend hn⟩
      · rw [endPerformance_alc]
        exact hdark ha
      · exact (endPerformance_of_none (by rw [hrec, ranOut_switch, hsw])).trans
          ((congrArg Shc.ended hrec).trans (ranOut_ended c p.side i))
    · rw [runOut_of_tail (s := s.taken x) hend hlt hlast]
      exact ⟨hstop, fun ha _ => hdark ha, ⟨fun _ _ => hrec.trans (ranOut_eq _ _ _), fun _ hl => absurd hl hlast⟩,
        fun hn => absurd hend hn⟩
  · by_cases hq : c.state = .idle ∨ c.state = .preparing ∨ c.state = .halted
    · rw [runOut_of_quiet (s := s.taken x) hq]
      refine ⟨hstop, fun ha _ => hdark ha, ⟨fun h => absurd h hend, fun h => absurd h hend⟩, fun _ => ?_⟩
      rw [hrec]
      exact ⟨ranOut_state _ _ _, hdone⟩
    · have hev : c.state = .showing ∨ c.state = .interval ∨ c.state = .gap := by
        revert hend hq
        cases c.state <;> simp
      rw [runOut_of_evaluated (s := s.taken x) hev]
      have harms : Arms sc _ (((s.taken x).ranOut p i r).evaluate sc) := (Arms.refl _).evaluate
      have hr := harms.record
      rw [hrec] at hr
      refine ⟨(Moves.refl (sc := sc) _).evaluate.mem_events hstop, fun _ hn => absurd hn (by tauto),
        ⟨fun h => absurd h hend, fun h => absurd h hend⟩, fun _ => ⟨hr.state.trans (ranOut_state _ _ _), ?_⟩⟩
      rw [(hr.entry i).eq (by rw [hdone]; simp), hdone]

end Sys2Proof.Machine
end

section
namespace Sys2Proof.Machine

variable {sc : Screen} {c d e : Shc} {s t u : State} {p : Proj} {side : Side} {l : List Part}
  {es : List Instr} {i j k w n : Nat} {r q : Reel} {st : EntryState} {v : VetoCause}

/-! ## The picture on (R32) -/

theorem preparing_eq_some_iff : c.preparing = some (i, r) ↔
    c.state = .preparing ∧ (c.entry c.current).kind = .reel r ∧ c.current = i := by
  unfold Shc.preparing
  split <;> simp_all
  · tauto

theorem holding_of_only (hk : (c.entry j).kind = .reel q) (hs : (c.entry j).state = st)
    (hu : ∀ k r, (c.entry k).kind = .reel r → (c.entry k).state = st → k = j) : c.holding st = some (j, q) := by
  cases hh : c.holding st with
  | none => exact absurd hs (Shc.not_of_holding_none hh hk)
  | some x =>
    obtain ⟨k, r⟩ := x
    obtain ⟨-, hkind, hst⟩ := Shc.holding_spec hh
    obtain rfl := hu k r hkind hst
    rw [hk] at hkind
    injection hkind with hq
    rw [hq]

/-- R32: what a picture that goes on leaves of the record. -/
structure Shc.PictureOn (c d : Shc) (side : Side) : Prop where
  state : d.state = .showing
  opened : d.douser side = true
  other : d.douser side.other = c.douser side.other
  sound : d.sound = side
  muted : d.muted = false
  entry : (d.entry c.current).state = .onScreen
  current : d.current = c.current
  countdown : d.countdown = c.countdown
  perfCount : d.perfCount = c.perfCount
  schedule : d.schedule = c.schedule
  halt : d.halt = c.halt

theorem Shc.PictureOn.arms (h : c.PictureOn d side) (k : d.Arms e) : c.PictureOn e side where
  state := k.state.trans h.state
  opened := (k.douser _).trans h.opened
  other := (k.douser _).trans h.other
  sound := k.sound.trans h.sound
  muted := k.muted.trans h.muted
  entry := by rw [(k.entry _).eq (by simp [h.entry]), h.entry]
  current := k.current.trans h.current
  countdown := k.countdown.trans h.countdown
  perfCount := k.perfCount.trans h.perfCount
  schedule := k.schedule.trans h.schedule
  halt := k.halt.trans h.halt

theorem pictureOn_entry (c : Shc) (side : Side) (k : Nat) : (c.pictureOn side).entry k = c.entry k :=
  setDouser_entry c side true k

theorem pictureOn_spec (h : (c.entry c.current).state = .onScreen) (side : Side) :
    c.PictureOn (c.pictureOn side) side := by
  cases side <;> exact ⟨rfl, rfl, rfl, rfl, rfl, h, rfl, rfl, rfl, rfl, rfl⟩

/-- R32: the record of a reel that was not on the screen before. -/
def Shc.firstOn (c : Shc) (side : Side) : Shc :=
  { (c.pictureOn side).enter c.current .onScreen with progress := .none }

theorem firstOn_entry (c : Shc) (side : Side) (k : Nat) :
    (c.firstOn side).entry k = (c.enter c.current .onScreen).entry k := by
  show ((c.pictureOn side).enter c.current .onScreen).entry k = _
  rw [enter_entry, enter_entry, pictureOn_entry]
  cases side <;> rfl

theorem firstOn_spec (h : (c.entry c.current).kind = .reel r) (side : Side) : c.PictureOn (c.firstOn side) side := by
  have hentry : ((c.firstOn side).entry c.current).state = .onScreen := by
    rw [firstOn_entry, enter_entry_self (length_of_kind_ne_empty (by simp [h]))]
    rfl
  cases hb : c.active <;> cases side <;> constructor <;>
    first | exact hentry | simp [Shc.firstOn, Shc.enter, Shc.modEntry, Shc.pictureOn, Shc.setDouser, Shc.setBank, hb,
      Shc.douser, Side.other]

theorem firstOn_onScreen (h : (c.entry c.current).kind = .reel r) (ho : c.holding .onScreen = none) (side : Side) :
    (c.firstOn side).holding .onScreen = some (c.current, r) := by
  refine holding_of_only ?_ (firstOn_spec h side).entry fun k q hk hs => ?_
  · rw [firstOn_entry, enter_kind, h]
  · by_contra hne
    rw [firstOn_entry, enter_kind] at hk
    rw [firstOn_entry, enter_entry_of_ne (Ne.symm hne)] at hs
    exact Shc.not_of_holding_none ho hk hs

theorem putPictureOn_of_dropped (h : (s.bsu.shutters.get (sc.proj r.side)).state ≠ .raised) :
    s.putPictureOn sc i r = s.haltScreen sc .shutter (some (sc.proj r.side)) := if_pos (decide_eq_false h)

theorem putPictureOn_of_veto (h : (s.bsu.shutters.get (sc.proj r.side)).state = .raised)
    (hv : s.bsu.vetoes.get (sc.proj r.side) = some v) : s.putPictureOn sc i r =
      s.haltScreen sc (vetoReason v) (reasonProj (vetoReason v) (sc.proj r.side)) := by
  have hs : s.shutterRaised (sc.proj r.side) = true := decide_eq_true h
  unfold State.putPictureOn
  dsimp only
  rw [if_neg (by simp [hs]), hv]

theorem putPictureOn_of_clear (h : (s.bsu.shutters.get (sc.proj r.side)).state = .raised)
    (hv : s.bsu.vetoes.get (sc.proj r.side) = none) : s.putPictureOn sc i r = s.showPicture sc i r := by
  have hs : s.shutterRaised (sc.proj r.side) = true := decide_eq_true h
  unfold State.putPictureOn
  dsimp only
  rw [if_neg (by simp [hs]), hv]

/-- R32: a picture put on for the first time, up to the opening of its cue window. -/
def State.firstOn (s : State) (sc : Screen) (r : Reel) : State :=
  let t := (s.modShc sc (·.pictureOn r.side)).modShc sc fun c => { c.enter (s.shc.get sc).current .onScreen with
    progress := .none }
  (t.serve sc (s.shc.get sc).current r).lightStep sc r
    ((t.serve sc (s.shc.get sc).current r).trm.get (sc.proj r.side)).count

theorem firstOn_acts (s : State) (sc : Screen) (r : Reel) :
    ∃ es, Acts [.alc (sc.proj r.side)] sc ((s.shc.get sc).firstOn r.side) es s (s.firstOn sc r) := by
  have h0 := (((Acts.start (l := [.alc (sc.proj r.side)]) (sc := sc) s).modShc (·.pictureOn r.side)).modShc
    fun c => { c.enter (s.shc.get sc).current .onScreen with progress := .none }).serve (s.shc.get sc).current r
    (by simp)
  obtain ⟨es, h⟩ := h0.lightStep r ((((s.modShc sc (·.pictureOn r.side)).modShc sc fun c => { c.enter
    (s.shc.get sc).current .onScreen with progress := .none }).serve sc (s.shc.get sc).current r).trm.get
    (sc.proj r.side)).count
  exact ⟨_, h⟩

theorem showPicture_first (hk : (s.shc.get sc).prep ≠ .resume) (r : Reel) :
    s.showPicture sc (s.shc.get sc).current r =
      (((s.firstOn sc r).reopenWindows sc).noteScreen sc .preparing .pictureOn none).evaluate sc := by
  unfold State.showPicture
  dsimp only
  rw [if_neg hk]
  rfl

/-- R32: the picture of kinds START and CONTINUE. -/
theorem showPicture_of_first (hk : (s.shc.get sc).prep ≠ .resume)
    (hr : ((s.shc.get sc).entry (s.shc.get sc).current).kind = .reel r) (ho : (s.shc.get sc).holding .onScreen = none)
    (hc : (s.trm.get (sc.proj r.side)).count < r.fm) :
    (s.shc.get sc).PictureOn ((s.showPicture sc (s.shc.get sc).current r).shc.get sc) r.side := by
  obtain ⟨es, hacts⟩ := firstOn_acts s sc r
  have hspec := firstOn_spec hr r.side
  have hopen : (s.firstOn sc r).reopenWindows sc =
      (s.firstOn sc r).emit (.cueWindowOpen (sc.proj r.side) .motor r.fm) := by
    have htrm : (s.firstOn sc r).trm.get (sc.proj r.side) = s.trm.get (sc.proj r.side) :=
      hacts.keeps (.trm (sc.proj r.side)) (by simp)
    exact openWindows_motor (by rw [hacts.shc]; exact firstOn_onScreen hr ho r.side) (by rw [hacts.shc]; rfl)
      (by rw [htrm]; exact hc) 7
  rw [showPicture_first hk, hopen]
  have harms := (Arms.refl (sc := sc)
    (((s.firstOn sc r).emit (.cueWindowOpen (sc.proj r.side) .motor r.fm)).noteScreen sc
    .preparing .pictureOn none)).evaluate.record
  exact hspec.arms (hacts.shc ▸ harms)

/-- R32: the picture of kind RESUME. -/
theorem showPicture_of_resume (hk : (s.shc.get sc).prep = .resume)
    (ho : (s.shc.get sc).holding .onScreen = some ((s.shc.get sc).current, r))
    (hm : (s.shc.get sc).progress = .none → (s.trm.get (sc.proj r.side)).count < r.fm)
    (hc : (s.shc.get sc).progress = .motorFired → (s.trm.get (sc.proj r.side)).count < r.fc) :
    (s.shc.get sc).PictureOn ((s.showPicture sc (s.shc.get sc).current r).shc.get sc) r.side := by
  generalize hv : s.modShc sc (·.pictureOn r.side) = v
  have hrec : v.shc.get sc = (s.shc.get sc).pictureOn r.side := by rw [← hv]; simp
  have hheld : (v.shc.get sc).holding .onScreen = some ((s.shc.get sc).current, r) := by
    rw [hrec]
    exact (show _ = (s.shc.get sc).holding .onScreen by cases r.side <;> rfl).trans ho
  have hprog : (v.shc.get sc).progress = (s.shc.get sc).progress := by rw [hrec]; cases r.side <;> rfl
  have hopen : Arms sc v (v.reopenWindows sc) := by
    unfold State.reopenWindows
    cases hp : (s.shc.get sc).progress with
    | none =>
      have h : State.openWindows sc cueFuel v = _ := openWindows_motor hheld (hprog.trans hp)
        (by rw [← hv]; exact hm hp) 7
      rw [h]
      exact (Arms.refl v).of_shc
    | motorFired =>
      have h : State.openWindows sc cueFuel v = _ := openWindows_changeover hheld (hprog.trans hp)
        (lt_of_lt_of_le (by rw [← hv]; exact hc hp) (by
        unfold lastFrame; split <;> omega)) 7
      rw [h]
      exact (Arms.refl v).of_shc
    | changeoverFired =>
      have h : State.openWindows sc cueFuel v = v := by
        unfold State.openWindows cueFuel
        simp only [hheld, hprog, hp]
      rw [h]
      exact .refl v
  have heq : s.showPicture sc (s.shc.get sc).current r =
      (((v.reopenWindows sc).resumeIncoming sc).noteScreen sc .preparing .pictureOn none).evaluate sc := by
    unfold State.showPicture
    dsimp only
    rw [if_pos hk, hv]
  have harms : Arms sc v (s.showPicture sc (s.shc.get sc).current r) := by
    rw [heq]
    exact hopen.resumeIncoming.of_shc.evaluate
  have hspec := pictureOn_spec (Shc.holding_spec ho).2.2 r.side
  exact hspec.arms (hrec ▸ harms.record)

theorem atSpeedSeen_of_ready (hp : (s.shc.get p.screen).state = .preparing)
    (hr : ((s.shc.get p.screen).entry (s.shc.get p.screen).current).kind = .reel r) (hside : r.side = p.side)
    (ht : (s.trm.get p).state = .atSpeed)
    (hc : (s.shc.get p.screen).prep = .resume ∨ (s.shc.get p.screen).setup.l0 ≤ (s.trm.get p).count) :
    atSpeedSeen p s = s.putPictureOn p.screen (s.shc.get p.screen).current r := by
  unfold atSpeedSeen
  dsimp only
  rw [preparing_eq_some_iff.2 ⟨hp, hr, rfl⟩]
  exact if_pos ⟨hside, decide_eq_true ht, hc⟩

theorem atSpeedSeen_of_not_ready (h : (s.shc.get p.screen).state ≠ .preparing ∨
      (∀ r, ((s.shc.get p.screen).entry (s.shc.get p.screen).current).kind = .reel r → r.side ≠ p.side) ∨
      (s.trm.get p).state ≠ .atSpeed ∨
      ((s.shc.get p.screen).prep ≠ .resume ∧ (s.trm.get p).count < (s.shc.get p.screen).setup.l0)) :
    atSpeedSeen p s = s := by
  unfold atSpeedSeen
  dsimp only
  split
  · next i r hpr =>
    obtain ⟨hst, hr, rfl⟩ := preparing_eq_some_iff.1 hpr
    refine if_neg fun ⟨hside, ht, hc⟩ => ?_
    obtain h | h | h | ⟨hk, hn⟩ := h
    · exact h hst
    · exact h r hr hside
    · exact h (of_decide_eq_true ht)
    · obtain hc | hc := hc
      · exact hk hc
      · omega
  · rfl

/-- Settles O31: the shutter down, the veto set, and the picture on, by the kind of the preparation. -/
theorem pictureGoesOnAtSpeed : Obligations.PictureGoesOnAtSpeed := by
  intro p count s x sc c n
  refine ⟨fun r hst hr hside ht hc => ?_, fun h =>
    congrArg Host.Outcome.next (atSpeedSeen_of_not_ready (s := s.taken x) h)⟩
  have hp : sc.proj r.side = p := by rw [hside]; exact screen_proj p
  have hmoves := Moves.atSpeedSeen (p := p) (Moves.refl (s.taken x))
  have run := atSpeedSeen_of_ready (s := s.taken x) hst hr hside ht hc
  rw [run] at hmoves
  refine ⟨fun h => ?_, fun h v hv hne => ?_, fun h hv hresume hfirst => ?_⟩
  · rw [putPictureOn_of_dropped (by rw [hp]; exact h), hp] at run
    exact ⟨_, congrArg Host.Outcome.next run, haltScreen_haltedBy _ _ _ _⟩
  · rw [putPictureOn_of_veto (by rw [hp]; exact h) (by rw [hp]; exact hv), hp] at run
    refine ⟨_, congrArg Host.Outcome.next run, ?_⟩
    have hhalted := haltScreen_haltedBy (s.taken x) sc (vetoReason v) (reasonProj (vetoReason v) p)
    cases v
    · exact absurd rfl hne
    all_goals exact hhalted
  · rw [putPictureOn_of_clear (by rw [hp]; exact h) (by rw [hp]; exact hv)] at run hmoves
    refine ⟨_, congrArg Host.Outcome.next run, hmoves.seen, ?_⟩
    have hon : c.PictureOn (((s.taken x).showPicture sc c.current r).shc.get sc) r.side := by
      by_cases hk : c.prep = .resume
      · obtain ⟨h1, h2, h3⟩ := hresume hk
        exact showPicture_of_resume (s := s.taken x) hk h1 (by rw [hp]; exact h2) (by rw [hp]; exact h3)
      · obtain ⟨h1, h2⟩ := hfirst hk
        exact showPicture_of_first (s := s.taken x) hk hr h1 (by rw [hp]; exact h2)
    rw [hside] at hon
    obtain ⟨h1, h2, h3, h4, h5, h6, h7, h8, h9, h10, h11⟩ := hon
    exact ⟨h1, h2, h3, h4, h5, h6, h7, h8, h9, h10, h11, hmoves.noted⟩

end Sys2Proof.Machine
end

section
namespace Sys2Proof.Machine

variable {sc : Screen} {c d e : Shc} {s t u : State} {p : Proj} {side : Side} {l : List Part}
  {es : List Instr} {i j k w n fc : Nat} {r q : Reel} {short : Bool} {x : Option Nat}

/-! ## The arming evaluation (R53 to R58, R118, R124) -/

/-- R53: an evaluation whose candidate is a CONFIRMED reel. -/
theorem evaluate_of_confirmed (h : (s.shc.get sc).evaluateAfter = some i) (hn : (s.shc.get sc).next i = .reel j q)
    (he : ((s.shc.get sc).entry j).state = .confirmed) : s.evaluate sc = s.evaluateReel sc j q := by
  unfold State.evaluate
  dsimp only
  rw [h]
  dsimp only
  rw [hn]
  dsimp only
  rw [if_neg (by simp [he]), noteFault_of_no_fault (by simp)]

/-- R54: a candidate that meets every item but, perhaps, that of the trim. -/
def State.Candidate (s : State) (sc : Screen) (j : Nat) (q : Reel) : Prop :=
  s.bsu.fire = none ∧ ((s.shc.get sc).entry j).state = .confirmed ∧
    (s.trm.get (sc.proj q.side)).state = .stopped ∧ (s.alc.get (sc.proj q.side)).state ≠ .failed ∧
    ∀ k f, (s.shc.get sc).next j ≠ .fault k f

theorem judge_of_candidate (h : s.Candidate sc j q) (k : TrimCase) : s.judge sc j q k =
    (if s.trimPasses sc j q k then .armable false
      else match (s.shc.get sc).setup.policy with | .run => .armable true | .hold => .fails .trimShort, s) := by
  obtain ⟨hf, he, ht, hl, hn⟩ := h
  rw [judge_of_free (blocker_eq_none_iff.2 ⟨hf, he, ht, hl⟩), noteFault_of_no_fault hn] <;> rfl

/-- R55: the candidate armed. -/
def State.armedFor (s : State) (sc : Screen) (j : Nat) (q : Reel) (short : Bool) : State :=
  (s.arm sc j q short).setTrimHold sc none

theorem evaluateReel_of_armable (h : s.Candidate sc j q) (hp : s.trimPasses sc j q (s.evaluateCase sc) = !short)
    (hs : short = true → (s.shc.get sc).setup.policy = .run) :
    s.evaluateReel sc j q = (s.armedFor sc j q short).afterArming sc j q (s.evaluateCase sc) := by
  unfold State.evaluateReel
  dsimp only
  rw [judge_of_candidate h, hp]
  cases short
  · rfl
  · rw [hs rfl]
    rfl

/-- R57: a candidate held back for its trim, reported once. -/
theorem evaluateReel_of_held (h : s.Candidate sc j q) (hp : s.trimPasses sc j q (s.evaluateCase sc) = false)
    (hh : (s.shc.get sc).setup.policy = .hold) : s.evaluateReel sc j q =
      if (s.shc.get sc).trimHold = some j then s
      else (s.noteEntry sc (s.shc.get sc).active j q .trimShort false none).setTrimHold sc (some j) := by
  unfold State.evaluateReel
  dsimp only
  rw [judge_of_candidate h, hp, hh]
  rfl

theorem armedFor_eq (s : State) (sc : Screen) (j : Nat) (q : Reel) (short : Bool) :
    s.armedFor sc j q short = { s with
    shc := s.shc.set sc { (s.shc.get sc).modEntry (s.shc.get sc).active j (·.arm short) with trimHold := none }
    trm := s.trm.set (sc.proj q.side) { s.trm.get (sc.proj q.side) with count := 0, runLength := some q.lp }
    cnl := s.cnl.raise
      ⟨s.bck.time, .entry sc (s.shc.get sc).active j (sc.proj q.side) q.title .armed short 0 none⟩ } := by
  simp [State.armedFor, State.arm, State.setTrimHold, State.modShc, State.modTrm, State.noteEntry, State.note,
    Trm.armFor]

/-- R55: the record of a screen whose candidate has been armed, its strike frame `x`. -/
def Shc.armedFor (c : Shc) (j : Nat) (short : Bool) (x : Option Nat) : Shc :=
  { c.modEntry c.active j (·.arm short) with trimHold := none, strikeFrame := x }

theorem modEntry_strikeFrame (c : Shc) (j : Nat) (short : Bool) :
    ({ c.modEntry c.active j (·.arm short) with trimHold := none } : Shc) = c.armedFor j short c.strikeFrame := by
  cases hb : c.active <;> simp [Shc.armedFor, Shc.modEntry, Shc.setBank, Shc.bank, hb]

theorem Acts.armedFor (h : Acts l sc c es s t) (hp : .trm (sc.proj q.side) ∈ l) (j : Nat) (short : Bool) :
    Acts l sc (c.armedFor j short c.strikeFrame) es s (t.armedFor sc j q short) := by
  rw [← modEntry_strikeFrame]
  exact (h.arm j q short hp).modShc fun c => { c with trimHold := none }

theorem armedFor_progress (c : Shc) (j : Nat) (short : Bool) (x : Option Nat) :
    (c.armedFor j short x).progress = c.progress := by
  cases hb : c.active <;> simp [Shc.armedFor, Shc.modEntry, Shc.setBank, Shc.bank, hb]

theorem armedFor_setup (c : Shc) (j : Nat) (short : Bool) (x : Option Nat) :
    (c.armedFor j short x).setup = c.setup := by
  cases hb : c.active <;> simp [Shc.armedFor, Shc.modEntry, Shc.setBank, Shc.bank, hb]

theorem armedFor_entry_self (h : j < (c.bank c.active).length) (short : Bool) (x : Option Nat) :
    (c.armedFor j short x).entry j = (c.entry j).arm short :=
  (Shc.modEntry_entry c _ j).trans (if_pos ⟨rfl, h⟩)

theorem armedFor_entry_of_ne (h : j ≠ k) (short : Bool) (x : Option Nat) :
    (c.armedFor j short x).entry k = c.entry k :=
  (Shc.modEntry_entry c _ k).trans (if_neg fun hn => h hn.1)

/-- R59: with no other entry ARMED, the incoming is the one just armed. -/
theorem armedFor_holding (hk : (c.entry j).kind = .reel q) (hl : j < (c.bank c.active).length)
    (ha : c.holding .armed = none) (short : Bool) (x : Option Nat) :
    (c.armedFor j short x).holding .armed = some (j, q) := by
  refine holding_of_only ?_ ?_ fun k r hr hs => ?_
  · rw [armedFor_entry_self hl]
    exact hk
  · rw [armedFor_entry_self hl]
    rfl
  · by_contra hne
    rw [armedFor_entry_of_ne (Ne.symm hne)] at hr hs
    exact Shc.not_of_holding_none ha hr hs

/-! ### What follows the arming (R58, R59, R62, R63) -/

/-- R59: a strike of the incoming lamp, taken, refused or not needed. -/
theorem Acts.strikeIncoming (h : Acts l sc d es s t) (hp : .alc (sc.proj q.side) ∈ l) (j : Nat) :
    ∃ es', Acts l sc d (es ++ es') s (t.strikeIncoming sc j q) := by
  unfold State.strikeIncoming
  dsimp only
  split
  · exact ⟨[], by simpa using h⟩
  · cases hr : t.strikeRefusal (sc.proj q.side) with
    | none =>
      rw [askStrike_of_none hr]
      exact ⟨_, h.strike hp .struck⟩
    | some y =>
      rw [askStrike_of_refusal hr]
      refine ⟨[], ?_⟩
      rw [List.append_nil]
      cases y with
      | accepted => exact h
      | _ => exact h.noteEntry _ _ _ _ _ _

theorem placeStrike_of_lit (h : (s.alc.get (sc.proj q.side)).state.lit = true) (fc n : Nat) :
    s.placeStrike sc q fc n = s.dropStrikeFrame sc := if_pos h

/-- R58: a strike point still to come. -/
theorem placeStrike_of_before (h : (s.alc.get (sc.proj q.side)).state.lit = false)
    (hk : strikeFrameOf fc (s.alc.get (sc.proj q.side)).setup.lead (s.shc.get sc).setup.f = k) (hn : n < k) :
    s.placeStrike sc q fc n = s.modShc sc fun c => { c with strikeFrame := some k } := by
  unfold State.placeStrike
  dsimp only
  rw [if_neg (by simp [h]), hk, if_neg (Nat.not_le.2 hn)]

/-- R58, R59: a strike point that is past. -/
theorem placeStrike_of_due (h : (s.alc.get (sc.proj q.side)).state.lit = false)
    (hn : strikeFrameOf fc (s.alc.get (sc.proj q.side)).setup.lead (s.shc.get sc).setup.f ≤ n)
    (ha : ((s.dropStrikeFrame sc).shc.get sc).holding .armed = some (j, q)) :
    s.placeStrike sc q fc n = (s.dropStrikeFrame sc).strikeIncoming sc j q := by
  unfold State.placeStrike State.makeStrike
  dsimp only
  rw [if_neg (by simp [h]), if_pos hn, ha]

theorem Acts.placeStrike (h : Acts l sc d es s t) (hp : .alc (sc.proj q.side) ∈ l)
    (ha : ((t.dropStrikeFrame sc).shc.get sc).holding .armed = some (j, q)) (fc n : Nat) :
    ∃ e es', Acts l sc e es' s (t.placeStrike sc q fc n) := by
  cases hl : (t.alc.get (sc.proj q.side)).state.lit with
  | true =>
    rw [placeStrike_of_lit hl]
    exact ⟨_, _, h.modShc _⟩
  | false =>
    by_cases hn : strikeFrameOf fc (t.alc.get (sc.proj q.side)).setup.lead (t.shc.get sc).setup.f ≤ n
    · rw [placeStrike_of_due hl hn ha]
      obtain ⟨es', hs⟩ := (h.modShc fun c => { c with strikeFrame := none }).strikeIncoming hp j
      exact ⟨_, _, hs⟩
    · rw [placeStrike_of_before hl rfl (Nat.not_le.1 hn)]
      exact ⟨_, _, h.modShc _⟩

theorem Acts.startIncoming_any (h : Acts l sc d es s t) (hp : .alc (sc.proj q.side) ∈ l) (j : Nat) :
    ∃ e es', Acts l sc e es' s (t.startIncoming sc j q) := by
  cases hl : (t.alc.get (sc.proj q.side)).state.lit with
  | true =>
    rw [startIncoming_of_lit hl]
    exact ⟨_, _, h.motorOn q.side⟩
  | false =>
    rw [startIncoming_of_unlit hl]
    obtain ⟨es', hs⟩ := ((h.motorOn q.side).modShc fun c => { c with strikeFrame := none }).strikeIncoming hp j
    exact ⟨_, _, hs⟩

/-- R57: whatever follows an arming in SHOWING. -/
theorem Acts.afterArming (h : Acts l sc d es s t) (hp : .alc (sc.proj q.side) ∈ l)
    (ha : ((t.dropStrikeFrame sc).shc.get sc).holding .armed = some (j, q)) (k : TrimCase) :
    ∃ e es', Acts l sc e es' s (t.afterArming sc j q k) := by
  unfold State.afterArming
  cases k with
  | coldStart => exact ⟨_, _, h⟩
  | changeover fc n =>
    dsimp only
    split
    · exact h.placeStrike hp ha fc n
    · exact h.startIncoming_any hp j

/-! ### The case of the trim test (R54) -/

theorem evaluateCase_of_showing (hs : (s.shc.get sc).state = .showing)
    (ho : (s.shc.get sc).holding .onScreen = some (i, r)) : s.evaluateCase sc =
      if (s.shc.get sc).progress = .changeoverFired then .coldStart
      else .changeover r.fc (s.trm.get (sc.proj r.side)).count := by
  unfold State.evaluateCase State.outgoing
  dsimp only
  rw [ho, hs]
  by_cases hp : (s.shc.get sc).progress = .changeoverFired <;> simp [hp]

theorem evaluateCase_of_dark (hs : (s.shc.get sc).state ≠ .showing) : s.evaluateCase sc = .coldStart := by
  unfold State.evaluateCase
  simp [hs]

theorem evaluateAfter_of_showing (hs : c.state = .showing) (ho : c.holding .onScreen = some (i, r)) :
    c.evaluateAfter = some i := by
  unfold Shc.evaluateAfter
  rw [hs, ho]
  rfl

theorem evaluateAfter_of_dark (hs : c.state = .interval ∨ c.state = .gap) : c.evaluateAfter = some c.current := by
  unfold Shc.evaluateAfter
  obtain hs | hs := hs <;> rw [hs]


/-- Settles O36: the evaluation in SHOWING by the progress of the cues, and in the other states. -/
theorem evaluationArmsOrHoldsBack : Obligations.EvaluationArmsOrHoldsBack := by
  refine ⟨?_, fun p j q s => ?_⟩
  · intro p i fc n j out q s x sc c u lamp hst ho hfc hn hnext hfire hconf hstop hlamp hsides ha hnf
    intro armed told case_
    have hreel : c.next i = .reel j q := hnext
    have hcand : (s.taken x).Candidate sc j q := ⟨hfire, hconf, hstop, hlamp, hnf⟩
    have hcase : (s.taken x).evaluateCase sc = case_ := by
      refine (evaluateCase_of_showing (s := s.taken x) hst ho).trans ?_
      rw [hfc]
      exact congrArg (fun n => if c.progress = .changeoverFired then TrimCase.coldStart else .changeover fc n) hn
    have run : exec x s = .next ((s.taken x).evaluateReel sc j q) := congrArg Host.Outcome.next
      (evaluate_of_confirmed (s := s.taken x) (evaluateAfter_of_showing hst ho) hreel hconf)
    refine ⟨fun short hp hs => ?_, fun hp hh => ?_⟩
    · have harm := evaluateReel_of_armable hcand (hcase ▸ hp) hs
      rw [hcase] at harm
      have hacts := (Acts.start (l := [.trm u]) (sc := sc) (s.taken x)).armedFor (q := q) (by simp [u]) j short
      have hlt : j < (c.bank c.active).length := length_of_kind_ne_empty (by simp [kind_of_next_reel hreel])
      have heq := armedFor_eq (s.taken x) sc j q short
      generalize hy : (s.taken x).armedFor sc j q short = y at harm hacts heq
      have hrec : y.shc.get sc = armed short c.strikeFrame := hacts.shc
      have hdrop : (y.dropStrikeFrame sc).shc.get sc = armed short none := by
        simp only [State.dropStrikeFrame, State.modShc, Quad.get_set_self, hrec] <;> rfl
      have hheld : ((y.dropStrikeFrame sc).shc.get sc).holding .armed = some (j, q) := by
        rw [hdrop]
        exact armedFor_holding (kind_of_next_reel hreel) hlt ha short none
      have halc : y.alc = s.alc := by rw [heq]; rfl
      have hev : y.events = s.events.erase x := by rw [heq]; rfl
      have hcnl : y.cnl = told short := by rw [heq]; rfl
      obtain ⟨e, es', hafter⟩ :=
        (Acts.start (l := [.alc u]) (sc := sc) y).afterArming (q := q) (by simp [u]) hheld case_
      refine ⟨_, run.trans (congrArg Host.Outcome.next harm), ?_, ?_, fun hprog => ?_, fun hprog => ?_,
        fun hprog => ?_⟩
      · exact (hacts.taken.1.mono (by simp)).trans (hafter.keeps.mono (by simp))
      · have htrm := hafter.keeps (.trm u) (by simp)
        refine Eq.trans htrm ?_
        rw [heq]
        simp only [u, Oct.get_set_self] <;> rfl
      · have hk : case_ = .changeover fc n := if_neg (by rw [show c.progress = _ from hprog]; nofun)
        have hyp : (y.shc.get sc).progress = .none := by rw [hrec]; exact (armedFor_progress ..).trans hprog
        have hplace : y.afterArming sc j q case_ = y.placeStrike sc q fc n := by
          rw [hk]
          exact if_pos hyp
        have hdue : strikeFrameOf fc (y.alc.get u).setup.lead (y.shc.get sc).setup.f =
            fc - lamp.setup.lead * c.setup.f := by
          rw [halc, hrec]
          exact congrArg (fun x : ScreenSetup => fc - lamp.setup.lead * x.f) (armedFor_setup ..)
        rw [hplace]
        refine ⟨fun hl hd => ?_, fun hl => ?_, fun hl hd hr hx => ?_⟩
        · rw [placeStrike_of_before (by rw [halc]; exact lit_of_unlit (.inl hl)) hdue hd]
          refine ⟨?_, by rw [State.modShc, halc], hev, hcnl⟩
          simp only [State.modShc, Quad.get_set_self, hrec] <;> rfl
        · rw [placeStrike_of_lit (by rw [halc]; exact hl)]
          exact ⟨hdrop, by rw [State.dropStrikeFrame, State.modShc, halc], hev, hcnl⟩
        · have hlit : (y.alc.get u).state.lit = false := by rw [halc]; exact lit_of_unlit (.inl hl)
          have hbsu : y.bsu = s.bsu := by rw [heq]; rfl
          have hask : (y.dropStrikeFrame sc).strikeRefusal u = none := strikeRefusal_eq_none hlit
            (by rw [State.dropStrikeFrame, State.modShc, halc]; exact hr)
            (by rw [State.dropStrikeFrame, State.modShc, hbsu]; exact hx)
            (by rw [State.dropStrikeFrame, State.modShc, hbsu]; exact hfire)
          rw [placeStrike_of_due hlit (by rw [hdue]; exact hd) hheld, strikeIncoming_of_none (by exact hlit) hask]
          have hstruck := (Acts.start (l := [.alc u]) (sc := sc) (y.dropStrikeFrame sc)).strike (p := u) (by simp)
            .struck
          exact ⟨hstruck.shc.trans hdrop, beginStrike_striking _ _ _⟩
      · have hk : case_ = .changeover fc n := if_neg (by rw [show c.progress = _ from hprog]; nofun)
        have hyp : (y.shc.get sc).progress ≠ .none := by
          rw [hrec, show (armed short c.strikeFrame).progress = _ from (armedFor_progress ..).trans hprog]
          nofun
        have hstart : y.afterArming sc j q case_ = y.startIncoming sc j q := by
          rw [hk]
          exact if_neg hyp
        rw [hstart]
        refine ⟨fun hl => ?_, fun hl hr hx => ?_⟩
        · rw [startIncoming_of_lit (by rw [halc]; exact hl)]
          have hon := (Acts.start (l := []) (sc := sc) y).motorOn q.side
          exact ⟨by rw [hon.shc, hrec], (hon.alc u).trans (by rw [halc]), by rw [hon.events, hev]; rfl, hcnl⟩
        · have hlit : (y.alc.get u).state.lit = false := by rw [halc]; exact lit_of_unlit (.inl hl)
          have hbsu : y.bsu = s.bsu := by rw [heq]; rfl
          obtain ⟨hon, hstr⟩ := (Acts.start (l := [.alc u]) (sc := sc) y).startIncoming (by simp [u]) hlit
            (strikeRefusal_eq_none hlit (by rw [halc]; exact hr) (by rw [hbsu]; exact hx) (by rw [hbsu]; exact hfire)) j
          refine ⟨?_, hstr, ?_⟩
          · rw [hon.shc, hrec]
            cases q.side <;> rfl
          · rw [hon.events, hev, halc, show (s.alc.get (sc.proj q.side)).state = _ from hl]
            rfl
      · have hk : case_ = .coldStart := if_pos hprog
        rw [hk]
        exact ⟨hrec, congrArg (Oct.get · u) halc, hev, hcnl⟩
    · have hheld := evaluateReel_of_held hcand (hcase ▸ hp) hh
      refine ⟨fun ht => run.trans (congrArg Host.Outcome.next (hheld.trans (if_pos ht))), fun ht =>
        run.trans (congrArg Host.Outcome.next (hheld.trans ((if_neg ht).trans rfl)))⟩
  · intro x sc c u
    refine ⟨fun h => congrArg Host.Outcome.next
      (evaluate_of_not_evaluated (s := s.taken x) (evaluateAfter_of_other h)), ?_⟩
    intro short hst hnext hfire hconf hstop hlamp hnf hp hs
    have hcand : (s.taken x).Candidate sc j q := ⟨hfire, hconf, hstop, hlamp, hnf⟩
    have hcase : (s.taken x).evaluateCase sc = .coldStart := evaluateCase_of_dark (s := s.taken x) (by
      obtain hst | hst := hst <;> rw [show ((s.taken x).shc.get sc).state = _ from hst] <;> nofun)
    have run : exec x s = .next ((s.taken x).evaluateReel sc j q) := congrArg Host.Outcome.next
      (evaluate_of_confirmed (s := s.taken x) (evaluateAfter_of_dark hst) hnext hconf)
    have harm := evaluateReel_of_armable hcand (hcase ▸ hp) hs
    rw [hcase] at harm
    exact run.trans (congrArg Host.Outcome.next (harm.trans (armedFor_eq (s.taken x) sc j q short)))

end Sys2Proof.Machine
end

section
namespace Sys2Proof.Machine

variable {sc : Screen} {c d e : Shc} {s t u : State} {p : Proj} {i j k w n now : Nat} {r q : Reel} {y : Schedule}
  {why : FaultReason}

/-! ## The booth second of a screen without a running schedule (R19, R39) -/

/-- No schedule runs and no switch is pending. -/
def Shc.Quiet (c : Shc) : Prop := c.switch = none ∧ (c.schedule = none ∨ ∃ y, c.schedule = some y ∧ y.suspended = true)

theorem Shc.Quiet.of (h : c.Quiet) (hw : d.switch = c.switch)
    (hs : d.schedule = c.schedule ∨ d.schedule = c.schedule.map Schedule.clearMisses) : d.Quiet := by
  obtain ⟨hn, hq⟩ := h
  refine ⟨hw.trans hn, ?_⟩
  obtain hq | ⟨y, hy, hsus⟩ := hq
  · rw [hq] at hs
    exact .inl (hs.elim id id)
  · rw [hy] at hs
    exact .inr (hs.elim (fun h => ⟨y, h, hsus⟩) fun h => ⟨_, h, hsus⟩)

theorem Shc.Quiet.running (h : (s.shc.get sc).Quiet) : s.running sc = none := by
  obtain hn | ⟨y, hy, hs⟩ := h.2
  · exact running_of_none hn
  · exact running_of_suspended hy hs

theorem boothSecond_of_quiet (h : ((s.intervalSecond sc).shc.get sc).Quiet) (now : Nat) :
    boothSecond sc now s = s.intervalSecond sc := by
  unfold boothSecond
  rw [testSwitch_of_none h.1]
  simp only [State.waitSecond, State.slotSecond, State.preStrikeSecond, h.running]

theorem intervalSecond_of_other (h : (s.shc.get sc).state ≠ .interval ∨ (s.shc.get sc).countdown = 0) :
    s.intervalSecond sc = s :=
  if_neg fun hi => h.elim (fun hn => hn hi.1) fun hz => by omega

theorem intervalSecond_of_running (h : (s.shc.get sc).state = .interval) (hc : 1 < (s.shc.get sc).countdown) :
    s.intervalSecond sc = (s.modShc sc fun c => { c with countdown := c.countdown - 1 }).intervalPreStrike sc := by
  unfold State.intervalSecond
  dsimp only
  rw [if_pos ⟨h, by omega⟩, if_neg (by omega)]

theorem intervalSecond_of_last (h : (s.shc.get sc).state = .interval) (hc : (s.shc.get sc).countdown = 1) :
    s.intervalSecond sc = (s.modShc sc fun c => { c with countdown := c.countdown - 1 }).endInterval sc := by
  unfold State.intervalSecond
  dsimp only
  rw [if_pos ⟨h, by omega⟩, if_pos hc]

/-! ### The pre-strike of an interval (R39) -/

theorem intervalPreStrike_of_made (h : (s.shc.get sc).preStrike = true) : s.intervalPreStrike sc = s :=
  if_neg fun hi => by rw [h] at hi; exact Bool.noConfusion hi.2.1

/-- R39: the pre-strike of the next reel's lamp is due. -/
def State.PreStrikeDue (s : State) (sc : Screen) (i : Nat) (r : Reel) : Prop :=
  (((s.shc.get sc).entry i).state = .confirmed ∨ ((s.shc.get sc).entry i).state = .armed) ∧
    (s.alc.get (sc.proj r.side)).state = .dark ∧
    (s.shc.get sc).countdown ≤ (s.alc.get (sc.proj r.side)).setup.lead

theorem intervalPreStrike_of_reel (hs : (s.shc.get sc).state = .interval) (hp : (s.shc.get sc).preStrike = false)
    (hc : 0 < (s.shc.get sc).countdown) (hn : (s.shc.get sc).next (s.shc.get sc).current = .reel i r) :
    (¬s.PreStrikeDue sc i r → s.intervalPreStrike sc = s) ∧
      (s.PreStrikeDue sc i r → s.intervalPreStrike sc =
        (s.askStrike (sc.proj r.side)).2.modShc sc fun c => { c with preStrike := true }) := by
  unfold State.intervalPreStrike
  dsimp only
  rw [if_pos ⟨hs, hp, hc⟩, hn, noteFault_of_no_fault (by simp)]
  exact ⟨fun hd => if_neg hd, fun hd => if_pos hd⟩

/-- R99: a strike that the screen asks for, accepted or refused. -/
theorem Acts.asked (s : State) (sc : Screen) (p : Proj) :
    ∃ es, Acts [.alc p] sc (s.shc.get sc) es s (s.askStrike p).2 := by
  have h := Acts.start (l := [.alc p]) (sc := sc) s
  cases hr : s.strikeRefusal p with
  | none =>
    rw [askStrike_of_none hr]
    exact ⟨_, h.strike (by simp) .struck⟩
  | some x =>
    rw [askStrike_of_refusal hr]
    exact ⟨_, h⟩

/-- R39: a pre-strike that is made, its strike accepted or refused. -/
theorem Acts.preStruck (s : State) (p : Proj) :
    ∃ es, Acts [.alc p] sc { s.shc.get sc with preStrike := true } es s
      ((s.askStrike p).2.modShc sc fun c => { c with preStrike := true }) := by
  obtain ⟨es, h⟩ := Acts.asked s sc p
  exact ⟨es, h.modShc fun c => { c with preStrike := true }⟩

/-- R99: what a strike of a DARK lamp comes to. -/
theorem askStrike_alc (hl : (s.alc.get p).state = .dark) :
    ((s.alc.get p).remaining ≠ 0 → s.bsu.proven = true → s.bsu.fire = none →
      ((s.askStrike p).2.alc.get p).state = .striking) ∧
    ((s.alc.get p).remaining = 0 ∨ s.bsu.proven = false ∨ s.bsu.fire.isSome = true →
      (s.askStrike p).2.alc.get p = s.alc.get p) := by
  have hlit := lit_of_unlit (.inl hl)
  refine ⟨fun hr hx hf => ?_, fun h => ?_⟩
  · rw [askStrike_of_none (strikeRefusal_eq_none hlit hr hx hf)]
    exact beginStrike_striking _ _ _
  · cases hask : s.strikeRefusal p with
    | none => exact absurd hask (by
        by_cases hr : (s.alc.get p).remaining = 0 <;> cases hx : s.bsu.proven <;>
          simp_all [State.strikeRefusal, State.fireLatched])
    | some x => rw [askStrike_of_refusal hask]

/-! ### The last second of an interval (R40) -/

theorem Shc.Stirs.quiet (h : c.Stirs d) (hq : c.Quiet) : d.Quiet :=
  hq.of (by rw [h.record]) (.inl (by rw [h.record]))

theorem intervalDone_quiet (h : (s.shc.get sc).Quiet) : ((s.intervalDone sc).shc.get sc).Quiet := by
  rw [(intervalDone_acts s sc).shc]
  refine h.of ?_ (.inl ?_) <;> rw [Shc.intervalDone, enter_record]

/-- R40: an interval that ends leaves a screen without a schedule without one. -/
theorem endInterval_quiet (h : (s.shc.get sc).Quiet)
    (hr : ∀ j r, (s.shc.get sc).next (s.shc.get sc).current = .reel j r → j ≠ (s.shc.get sc).current ∧
      ((s.shc.get sc).entry j).state = .armed ∧ (s.alc.get (sc.proj r.side)).state = .stable) :
    ((s.endInterval sc).shc.get sc).Quiet := by
  have hd := intervalDone_quiet h
  have hacts := intervalDone_acts s sc
  rw [endInterval_eq]
  cases hn : (s.shc.get sc).next (s.shc.get sc).current with
  | reel j r =>
    obtain ⟨hj, ha, hl⟩ := hr j r hn
    have harmed : ((s.shc.get sc).intervalDone.entry j).state = .armed :=
      (congrArg Entry.state (enter_entry_of_ne hj.symm .done)).trans ha
    have hstable : ((s.intervalDone sc).alc.get (sc.proj r.side)).state = .stable := by rw [hacts.alc]; exact hl
    have hup (short : Bool) := (hacts.bringUp (kind := .cont) (.inr harmed) short .intervalEnd
      (by rw [hstable]; rfl)).1 hstable
    dsimp only
    rw [judgeStart_of_armed (by rw [hacts.shc]; exact harmed)]
    dsimp only
    rw [(hup _).shc]
    rw [hacts.shc] at hd
    refine hd.of ?_ (.inr ?_) <;> cases r.side <;> rfl
  | interval j w q => exact (enterInterval_spec _ sc j w q _).1.stirs.quiet (by
      refine hd.of ?_ (.inl ?_) <;> rw [Shc.inInterval, enter_record])
  | fault j why => exact (enterGap_spec _ sc _).1.quiet hd
  | finish =>
    dsimp only
    split
    · rw [(enterEnding_eq (s.intervalDone sc) sc .intervalEnd).shc]
      exact hd
    · have hend := (hacts.postShow (s.shc.get sc).setup.fin).ended
      have hq : (((s.intervalDone sc).postShow sc (s.shc.get sc).setup.fin).ended sc |>.shc.get sc).Quiet := by
        rw [hend.shc]
        rw [hacts.shc] at hd
        refine hd.of ?_ (.inl ?_) <;> simp [Shc.ended, Shc.idle, Shc.mapActive]
      rw [endPerformance_eq, testSwitch_of_none hq.1]
      exact hq

/-- Settles O21: the booth second by the screen's state and its countdown. -/
theorem boothSecondRunsTheInterval : Obligations.BoothSecondRunsTheInterval := by
  intro sc now s x c d hw hs
  have hq : c.Quiet := ⟨hw, hs⟩
  have hdq : d.Quiet := hq.of rfl (.inl rfl)
  have hset : ((s.taken x).modShc sc fun c => { c with countdown := c.countdown - 1 }) =
      { s with events := s.events.erase x, shc := s.shc.set sc d } := rfl
  refine ⟨fun h => ?_, fun hst hc => ?_, fun hst hc => ?_⟩
  · have hsec := intervalSecond_of_other (s := s.taken x) (sc := sc) h
    exact congrArg Host.Outcome.next ((boothSecond_of_quiet (by rw [hsec]; exact hq) now).trans hsec)
  · have hsec := intervalSecond_of_running (s := s.taken x) (sc := sc) hst hc
    rw [hset] at hsec
    generalize hv : ({ s with events := s.events.erase x, shc := s.shc.set sc d } : State) = v at hsec
    have hrec : v.shc.get sc = d := by rw [← hv]; exact Quad.get_set_self ..
    have hquiet (t : State) (h : v.intervalPreStrike sc = t) (ht : (t.shc.get sc).Quiet) : exec x s = .next t :=
      congrArg Host.Outcome.next ((boothSecond_of_quiet (by rw [hsec, h]; exact ht) now).trans (hsec.trans h))
    refine ⟨fun hp => hquiet v (intervalPreStrike_of_made (by rw [hrec]; exact hp)) (by rw [hrec]; exact hdq), ?_⟩
    intro i r hp hn p a due
    obtain ⟨hidle, hdue⟩ := intervalPreStrike_of_reel (s := v) (sc := sc) (i := i) (r := r) (by rw [hrec]; exact hst)
      (by rw [hrec]; exact hp) (by rw [hrec]; exact Nat.sub_pos_of_lt hc) (by rw [hrec]; exact hn)
    have hiff : v.PreStrikeDue sc i r ↔ due := by
      unfold State.PreStrikeDue
      rw [hrec, ← hv]
      exact Iff.rfl
    refine ⟨fun hnd => hquiet v (hidle fun h => hnd (hiff.1 h)) (by rw [hrec]; exact hdq), fun hd => ?_⟩
    obtain ⟨es, hacts⟩ := Acts.preStruck (sc := sc) v p
    have halc : v.alc = s.alc := by rw [← hv]
    have hbsu : v.bsu = s.bsu := by rw [← hv]
    obtain ⟨hstrike, hrefuse⟩ := askStrike_alc (s := v) (p := p) (by rw [halc]; exact hd.2.1)
    rw [halc, hbsu] at hstrike hrefuse
    refine ⟨_, hquiet _ (hdue (hiff.2 hd)) ?_, ?_, ?_, hstrike, hrefuse⟩
    · rw [hacts.shc, hrec]
      exact hdq.of rfl (.inl rfl)
    · have hkeep : KeepsAllBut s v [.events, .cnl, .shc sc, .alc p] := by
        rw [← hv, ← hset]
        exact ((keeps_taken s x).mono (by simp)).trans ((keeps_modShc _ sc _).mono (by simp))
      exact hkeep.trans hacts.keeps
    · rw [hacts.shc, hrec]
  · have hsec := intervalSecond_of_last (s := s.taken x) (sc := sc) hst hc
    rw [hset] at hsec
    generalize hv : ({ s with events := s.events.erase x, shc := s.shc.set sc d } : State) = v at hsec
    have hrec : v.shc.get sc = d := by rw [← hv]; exact Quad.get_set_self ..
    have hmoves := (Moves.refl (sc := sc) (s.taken x)).boothSecond now
    refine ⟨_, rfl, hmoves.seen, hmoves.noted, ?_⟩
    intro u
    have hgo (h : ((v.endInterval sc).shc.get sc).Quiet) : boothSecond sc now (s.taken x) = v.endInterval sc :=
      (boothSecond_of_quiet (by rw [hsec]; exact h) now).trans hsec
    have hvq : (v.shc.get sc).Quiet := by rw [hrec]; exact hdq
    have hnext : (v.shc.get sc).next (v.shc.get sc).current = c.next c.current := by rw [hrec]; rfl
    refine ⟨fun i r hn hi ha hl => ?_, fun i w q hn => ?_, fun hn ho => ?_, fun hn ho => ?_, fun i f hn => ?_⟩
    · have hquiet := endInterval_quiet hvq fun j q hj => by
        obtain ⟨rfl, rfl⟩ : i = j ∧ r = q := by simpa [hnext, hn] using hj
        rw [hrec]
        exact ⟨hi, ha, by rw [← hv]; exact hl⟩
      have hend := endInterval_of_reel (hnext.trans hn) (by rw [hrec]; exact hi) (by rw [hrec]; exact ha)
        (by rw [← hv]; exact hl)
      rw [← hgo hquiet, hrec] at hend
      exact hend
    · have hquiet := endInterval_quiet hvq (by rw [hnext, hn]; nofun)
      have hend := endInterval_of_interval (hnext.trans hn)
      rw [← hgo hquiet] at hend
      exact hend
    · have hquiet := endInterval_quiet hvq (by rw [hnext, hn]; nofun)
      have hend := endInterval_of_finish (hnext.trans hn) (by rw [hrec]; exact ho)
      have hposted := (intervalDone_acts v sc).postShow (v.shc.get sc).setup.fin
      have hcount : ((v.shc.get sc).intervalDone).perfCount = c.perfCount := by
        rw [hrec, Shc.intervalDone, enter_record]
      have hu := hend.symm.trans (hgo hquiet).symm
      generalize (v.intervalDone sc).postShow sc (v.shc.get sc).setup.fin = z at hposted hu
      obtain ⟨hidle, hperf, -⟩ := endPerformance_spec z sc
      have hpost := (Moves.refl (sc := sc) z).endPerformance.mem_events
        (x := .post sc .show_ (v.shc.get sc).setup.fin) (by rw [hposted.events]; simp)
      rw [hposted.shc, hcount] at hperf
      rw [hu] at hidle hperf hpost
      rw [hrec] at hpost
      exact ⟨hidle, hperf, hpost⟩
    · have hquiet := endInterval_quiet hvq (by rw [hnext, hn]; nofun)
      have hend := endInterval_of_tail (hnext.trans hn) (by rw [hrec]; exact ho)
      rw [← hgo hquiet, hrec] at hend
      exact hend
    · have hquiet := endInterval_quiet hvq (by rw [hnext, hn]; nofun)
      have hend := endInterval_of_fault (hnext.trans hn)
      rw [← hgo hquiet, hrec] at hend
      exact hend

end Sys2Proof.Machine
end

section
namespace Sys2Proof.Machine

variable {sc : Screen} {c d e : Shc} {s t u v : State} {p : Proj} {i j k w n now slot : Nat} {r q : Reel}
  {x y z : Schedule} {a b : Option Schedule} {reason : SchedReason} {why : NotReady} {l : List Part} {es : List Instr}

/-! ## What the work of a schedule leaves (R19) -/

/-- From `s` to `t` the record of the screen has changed in its schedule alone, and notices have been given. -/
structure Timed (sc : Screen) (s t : State) : Prop where
  record : t.shc.get sc = { s.shc.get sc with schedule := (t.shc.get sc).schedule }
  noted : Noted s.cnl t.cnl
  events : ∀ o ∈ s.events, o ∈ t.events
  bck : t.bck = s.bck

namespace Timed

theorem refl (s : State) : Timed sc s s := ⟨rfl, Noted.refl _, fun _ h => h, rfl⟩

theorem trans (h : Timed sc s t) (k : Timed sc t u) : Timed sc s u :=
  ⟨by rw [k.record, h.record], h.noted.trans k.noted, fun o ho => k.events o (h.events o ho), k.bck.trans h.bck⟩

theorem note (h : Timed sc s t) (o : NoticeBody) : Timed sc s (t.note o) :=
  h.trans ⟨rfl, ⟨[_], rfl⟩, fun _ h => h, rfl⟩

theorem setSchedule (h : Timed sc s t) (a : Option Schedule) : Timed sc s (t.setSchedule sc a) := by
  refine h.trans ⟨?_, Noted.refl _, fun _ h => h, rfl⟩
  simp [State.setSchedule]

theorem of_keeps (h : KeepsAllBut s t [.cnl]) (hn : Noted s.cnl t.cnl) : Timed sc s t := by
  have hshc : t.shc.get sc = s.shc.get sc := h (.shc sc) (by simp)
  have hev : t.events = s.events := h .events (by simp)
  refine ⟨by rw [hshc], hn, fun o ho => hev ▸ ho, h .bck (by simp)⟩

theorem noteFault (h : Timed sc s t) (n : Nat) (o : Resolved) : Timed sc s (t.noteFault sc n o) :=
  h.trans (of_keeps (noteFault_frame t sc n o).1 (noteFault_frame t sc n o).2)

theorem of_acts (h : Acts l sc (s.shc.get sc) es s t) (hl : .bck ∉ l) : Timed sc s t :=
  ⟨by rw [h.shc], h.noted, fun o ho => h.events ▸ List.mem_append_left _ ho, h.keeps .bck (by simp [hl])⟩

theorem state (h : Timed sc s t) : (t.shc.get sc).state = (s.shc.get sc).state := by rw [h.record]
theorem setup (h : Timed sc s t) : (t.shc.get sc).setup = (s.shc.get sc).setup := by rw [h.record]

end Timed

theorem setSchedule_schedule (s : State) (sc : Screen) (a : Option Schedule) :
    ((s.setSchedule sc a).shc.get sc).schedule = a := by simp [State.setSchedule]

/-! ### The pre-strike of a second (R23) -/

/-- The schedule `b` is `a`, or `a` with its pre-strike made. -/
def Flagged (a b : Option Schedule) : Prop :=
  b = a ∨ ∃ y, a = some y ∧ y.suspended = false ∧ b = some { y with preStrike := true }

theorem Flagged.eq_none (h : Flagged none b) : b = none := by
  obtain h | ⟨y, hy, -⟩ := h
  · exact h
  · cases hy

theorem Flagged.eq_some (h : Flagged (some y) b) : ∃ flag, b = some { y with preStrike := flag } := by
  obtain h | ⟨y', hy, -, hb⟩ := h
  · exact ⟨y.preStrike, h⟩
  · cases hy
    exact ⟨true, hb⟩

theorem Flagged.eq_suspended (h : Flagged (some y) b) (hs : y.suspended = true) : b = some y := by
  obtain h | ⟨y', hy, hn, -⟩ := h
  · exact h
  · cases hy
    rw [hs] at hn
    cases hn

theorem Holds.flagged (h : Holds a x) (hf : Flagged a b) : ∃ flag, Holds b { x with preStrike := flag } := by
  obtain ⟨hsome, hnone⟩ := h
  by_cases hl : x.Left ∨ x.wait.isSome = true
  · rw [hsome hl] at hf
    obtain ⟨flag, hb⟩ := hf.eq_some
    exact ⟨flag, fun _ => hb, fun h1 h2 => absurd hl (by rintro (h | h); exacts [h1 h, by simp_all])⟩
  · have hn : x.wait = .none := by simpa using fun h => hl (.inr h)
    rw [hnone (fun h => hl (.inl h)) hn] at hf
    exact ⟨x.preStrike, fun h => absurd h hl, fun _ _ => hf.eq_none⟩

theorem slotPreStrike_of_made (h : x.preStrike = true) (now : Nat) : s.slotPreStrike sc x now = s :=
  if_pos (by simp [h])

theorem slotPreStrike_spec (h : (s.shc.get sc).schedule = some x) (hs : x.suspended = false) (now : Nat) :
    Timed sc s (s.slotPreStrike sc x now) ∧
      Flagged (some x) ((s.slotPreStrike sc x now).shc.get sc).schedule := by
  have hfault := (Timed.refl (sc := sc) s).noteFault 0 (s.shc.get sc).first
  have hrec := (noteFault_frame s sc 0 (s.shc.get sc).first).1 (.shc sc) (by simp)
  have hsame : ((s.noteFault sc 0 (s.shc.get sc).first).shc.get sc).schedule = some x :=
    (congrArg Shc.schedule hrec).trans h
  unfold State.slotPreStrike
  dsimp only
  split
  · exact ⟨.refl _, .inl h⟩
  · split
    · split
      · have hset := hfault.setSchedule (some { x with preStrike := true })
        have hmade := setSchedule_schedule (s.noteFault sc 0 (s.shc.get sc).first) sc
          (some { x with preStrike := true })
        split
        · next o r _ _ _ =>
          obtain ⟨es, hask⟩ := Acts.asked ((s.noteFault sc 0 (s.shc.get sc).first).setSchedule sc
            (some { x with preStrike := true })) sc (sc.proj r.side)
          exact ⟨hset.trans (.of_acts hask (by simp)), .inr ⟨x, rfl, hs, by rw [hask.shc]; exact hmade⟩⟩
        · exact ⟨hset, .inr ⟨x, rfl, hs, hmade⟩⟩
      · exact ⟨hfault, .inl hsame⟩
    · exact ⟨hfault, .inl hsame⟩

theorem preStrikeSecond_spec (s : State) (sc : Screen) (now : Nat) :
    Timed sc s (s.preStrikeSecond sc now) ∧
      Flagged (s.shc.get sc).schedule ((s.preStrikeSecond sc now).shc.get sc).schedule := by
  cases hy : (s.shc.get sc).schedule with
  | none => 
    have hr := running_of_none hy
    simp only [State.preStrikeSecond, hr, hy]
    exact ⟨.refl _, .inl rfl⟩
  | some x =>
    cases hs : x.suspended with
    | true =>
      have hr := running_of_suspended hy hs
      simp only [State.preStrikeSecond, hr, hy]
      exact ⟨.refl _, .inl rfl⟩
    | false =>
      have hr := running_of_some hy hs
      simp only [State.preStrikeSecond, hr]
      exact slotPreStrike_spec hy hs now

/-! ### A missed slot (R22) -/

theorem State.Missed.flagged {after after' : Cnl} (h : s.Missed sc y reason slot a after) (hf : Flagged a b)
    (hn : Noted after after') : s.Missed sc y reason slot b after' := by
  obtain ⟨htold, hsus, hsome, hnone⟩ := h
  refine ⟨htold.after hn, fun hl hm => ?_, fun hl hm => ?_, fun hl => ?_⟩
  · rw [hsus hl hm] at hf
    exact hf.eq_suspended rfl
  · obtain ⟨flag, hy⟩ := hsome hl hm
    rw [hy] at hf
    exact hf.eq_some
  · rw [hnone hl] at hf
    exact hf.eq_none

theorem settle_of_left (h : x.Left) : x.settle = some x := (holds_settle x).1 (.inl h)

theorem missSlot_of_left (h : x.Left) (hm : n = min 255 (x.miss + 1)) : s.missSlot sc x reason slot =
    if (s.shc.get sc).setup.limit ≤ n then
      ((s.note (.schedule sc .missed (some reason) 1 slot)).setSchedule sc
        (some { x with miss := n, suspended := true })).note (.schedule sc .blocked none n 0)
    else (s.note (.schedule sc .missed (some reason) 1 slot)).setSchedule sc (some { x with miss := n }) := by
  have hs : ({ x with miss := satSucc 255 x.miss } : Schedule).settle = some { x with miss := satSucc 255 x.miss } :=
    settle_of_left h
  subst hm
  unfold State.missSlot
  dsimp only
  rw [hs]
  rfl

theorem missSlot_of_over (h : ¬x.Left) (hw : x.wait = none) : s.missSlot sc x reason slot =
    (s.note (.schedule sc .missed (some reason) 1 slot)).setSchedule sc none := by
  have hs : ({ x with miss := satSucc 255 x.miss } : Schedule).settle = none := (holds_settle _).2 h hw
  unfold State.missSlot
  dsimp only
  rw [hs]

/-- R22: a missed slot. -/
theorem missSlot_spec (s : State) (sc : Screen) (hw : x.wait = none) (reason : SchedReason) (slot : Nat) :
    Timed sc s (s.missSlot sc x reason slot) ∧
      s.Missed sc { x with miss := min 255 (x.miss + 1) } reason slot
        ((s.missSlot sc x reason slot).shc.get sc).schedule (s.missSlot sc x reason slot).cnl := by
  have hnote := (Timed.refl (sc := sc) s).note (.schedule sc .missed (some reason) 1 slot)
  have htold : Told s.cnl (s.note (.schedule sc .missed (some reason) 1 slot)).cnl
      ⟨s.bck.time, .schedule sc .missed (some reason) 1 slot⟩ := .of_noted (Noted.refl _) _
  by_cases hl : x.Left
  · rw [missSlot_of_left hl rfl]
    split
    · next hlim => exact ⟨(hnote.setSchedule _).note _, htold.after ⟨[_], rfl⟩, fun _ _ => setSchedule_schedule ..,
        fun _ hm => absurd hlim (Nat.not_le.2 hm), fun hn => absurd hl hn⟩
    · next hlim => exact ⟨hnote.setSchedule _, htold, fun _ hm => absurd hm hlim,
        fun _ _ => ⟨x.preStrike, setSchedule_schedule ..⟩, fun hn => absurd hl hn⟩
  · rw [missSlot_of_over hl hw]
    exact ⟨hnote.setSchedule _, htold, fun hn => absurd hn hl, fun hn => absurd hn hl, fun _ => setSchedule_schedule ..⟩

theorem Told.before {f g h : Cnl} {o : Notice} (hn : Noted f g) (k : Told g h o) : Told f h o := by
  obtain ⟨more, rfl⟩ := hn
  obtain ⟨before, after, rfl⟩ := k
  exact ⟨more ++ before, after, by simp [List.foldl_append]⟩

/-- A slot missed behind what has left the clock and the setup as they were. -/
theorem State.Missed.before {after : Cnl} (hn : Noted s.cnl t.cnl) (hb : t.bck = s.bck)
    (hs : (t.shc.get sc).setup = (s.shc.get sc).setup) (h : t.Missed sc y reason slot a after) :
    s.Missed sc y reason slot a after := by
  obtain ⟨htold, hsus, hsome, hnone⟩ := h
  rw [hs] at hsus hsome
  rw [hb] at htold
  exact ⟨.before hn htold, hsus, hsome, hnone⟩

/-! ### The stages of a second (R19) -/

theorem due_iff (x : Schedule) (now : Nat) : x.due now = true ↔ x.Left ∧ x.slotTime ≤ now := by
  rw [← exhausted_iff, Schedule.due]
  simp

theorem boothSecond_of_plan (hw : (s.shc.get sc).switch = none)
    (hi : (s.shc.get sc).state ≠ .interval ∨ (s.shc.get sc).countdown = 0) (now : Nat) :
    boothSecond sc now s = ((s.waitSecond sc now).slotSecond sc now).preStrikeSecond sc now := by
  unfold boothSecond
  rw [intervalSecond_of_other hi, testSwitch_of_none hw]

theorem waitSecond_of_none (h : s.running sc = some x) (hw : x.wait = none) : s.waitSecond sc now = s := by
  unfold State.waitSecond
  simp only [h, hw]

theorem waitSecond_of_some (h : s.running sc = some x) (hw : x.wait = some w) :
    s.waitSecond sc now = s.dealWait sc x w now := by
  unfold State.waitSecond
  simp only [h, hw]

theorem slotSecond_of_due (h : s.running sc = some x) (hd : x.due now = true) :
    s.slotSecond sc now = s.dealSlot sc x now := by
  unfold State.slotSecond
  simp only [h, hd, if_true]

theorem slotSecond_of_idle (h : ∀ x, s.running sc = some x → x.due now = false) : s.slotSecond sc now = s := by
  unfold State.slotSecond
  split
  · next x hx => rw [if_neg (by simp [h x hx])]
  · rfl

/-- R20, R21: the verdict of a start test on an entry that cannot start. -/
theorem testStart_eq_of_blocked (h : s.StartBlocked sc why) :
    s.testStart sc = (.notReady why, (s.testStart sc).2) := Prod.ext (testStart_of_blocked h) rfl

theorem missReason_eq (why : NotReady) : missReason why = why.missed := by cases why <;> rfl

theorem dealSlot_of_busy (h : (s.shc.get sc).state ≠ .idle) (x : Schedule) (now : Nat) :
    s.dealSlot sc x now = s.missSlot sc x.advance .overrun x.slotTime := if_pos h

/-- R20: the state in which a second starts the performance, its schedule `a` then. -/
def State.startedWith (s : State) (sc : Screen) (i : Nat) (r : Reel) (a : Option Schedule) : State :=
  ((s.noteFault sc (i + 1) ((s.shc.get sc).next i)).setSchedule sc a).bringUp sc .start i r false .start

theorem dealSlot_of_startable (h : (s.shc.get sc).state = .idle) (hs : s.Startable sc i r) (x : Schedule) (now : Nat) :
    s.dealSlot sc x now = s.startedWith sc i r x.advance.settle := by
  unfold State.dealSlot
  dsimp only
  rw [if_neg (not_not_intro h), testStart_of_startable hs]
  rfl

theorem dealSlot_of_blocked (h : (s.shc.get sc).state = .idle) (hs : s.StartBlocked sc why) (x : Schedule) (now : Nat) :
    s.dealSlot sc x now =
      if x.slotTime + (s.shc.get sc).setup.grace ≤ now then
        (s.testStart sc).2.missSlot sc x.advance why.missed x.slotTime
      else (s.testStart sc).2.setSchedule sc (some { x.advance with wait := some x.slotTime }) := by
  have hset := (Timed.of_keeps (sc := sc) (testStart_frame s sc).1 (testStart_frame s sc).2).setup
  unfold State.dealSlot
  dsimp only
  rw [if_neg (not_not_intro h), testStart_eq_of_blocked hs]
  dsimp only
  rw [hset, missReason_eq]

theorem dealWait_of_busy (h : (s.shc.get sc).state ≠ .idle) (x : Schedule) (w now : Nat) :
    s.dealWait sc x w now = s.setSchedule sc ({ x with wait := none } : Schedule).settle := if_pos h

theorem dealWait_of_startable (h : (s.shc.get sc).state = .idle) (hs : s.Startable sc i r) (x : Schedule)
    (w now : Nat) :
    s.dealWait sc x w now = s.startedWith sc i r ({ x with wait := none } : Schedule).settle := by
  unfold State.dealWait
  dsimp only
  rw [if_neg (not_not_intro h), testStart_of_startable hs]
  rfl

theorem dealWait_of_blocked (h : (s.shc.get sc).state = .idle) (hs : s.StartBlocked sc why) (x : Schedule)
    (w now : Nat) : s.dealWait sc x w now =
      if w + (s.shc.get sc).setup.grace ≤ now ∨ x.due now = true then
        (s.testStart sc).2.missSlot sc { x with wait := none } why.missed w
      else (s.testStart sc).2 := by
  have hset := (Timed.of_keeps (sc := sc) (testStart_frame s sc).1 (testStart_frame s sc).2).setup
  unfold State.dealWait
  dsimp only
  rw [if_neg (not_not_intro h), testStart_eq_of_blocked hs]
  dsimp only
  rw [hset, missReason_eq]

/-- R20, R22: slot k, due on a busy screen, is missed. -/
theorem slotStage_of_busy (hy : (s.shc.get sc).schedule = some x) (hs : x.suspended = false) (hw : x.wait = none)
    (hd : x.due now = true) (hb : (s.shc.get sc).state ≠ .idle) :
    Timed sc s ((s.slotSecond sc now).preStrikeSecond sc now) ∧
      s.Missed sc { x.advance with miss := min 255 (x.miss + 1) } .overrun x.slotTime
        (((s.slotSecond sc now).preStrikeSecond sc now).shc.get sc).schedule
        ((s.slotSecond sc now).preStrikeSecond sc now).cnl := by
  rw [slotSecond_of_due (running_of_some hy hs) hd, dealSlot_of_busy hb]
  obtain ⟨ht, hm⟩ := missSlot_spec s sc (x := x.advance) hw .overrun x.slotTime
  obtain ⟨htp, hf⟩ := preStrikeSecond_spec (s.missSlot sc x.advance .overrun x.slotTime) sc now
  exact ⟨ht.trans htp, hm.flagged hf htp.noted⟩

/-- R20, R21: slot k, due on an IDLE screen whose first entry cannot start. -/
theorem slotStage_of_blocked (hy : (s.shc.get sc).schedule = some x) (hs : x.suspended = false) (hw : x.wait = none)
    (hd : x.due now = true) (hi : (s.shc.get sc).state = .idle) (hb : s.StartBlocked sc why) :
    Timed sc s ((s.slotSecond sc now).preStrikeSecond sc now) ∧
      (now < x.slotTime + (s.shc.get sc).setup.grace → ∃ flag,
        (((s.slotSecond sc now).preStrikeSecond sc now).shc.get sc).schedule =
          some { x with k := x.k + 1, preStrike := flag, wait := some x.slotTime }) ∧
      (x.slotTime + (s.shc.get sc).setup.grace ≤ now →
        s.Missed sc { x.advance with miss := min 255 (x.miss + 1) } why.missed x.slotTime
          (((s.slotSecond sc now).preStrikeSecond sc now).shc.get sc).schedule
          ((s.slotSecond sc now).preStrikeSecond sc now).cnl) := by
  have htest := Timed.of_keeps (sc := sc) (testStart_frame s sc).1 (testStart_frame s sc).2
  rw [slotSecond_of_due (running_of_some hy hs) hd, dealSlot_of_blocked hi hb]
  split
  · next hg =>
    obtain ⟨ht, hm⟩ := missSlot_spec (s.testStart sc).2 sc (x := x.advance) hw why.missed x.slotTime
    obtain ⟨htp, hf⟩ := preStrikeSecond_spec ((s.testStart sc).2.missSlot sc x.advance why.missed x.slotTime) sc now
    exact ⟨(htest.trans ht).trans htp, fun hn => absurd hg (Nat.not_le.2 hn), fun _ =>
      (hm.flagged hf htp.noted).before htest.noted htest.bck htest.setup⟩
  · next hg =>
    have hset := htest.setSchedule (some { x.advance with wait := some x.slotTime })
    obtain ⟨htp, hf⟩ := preStrikeSecond_spec ((s.testStart sc).2.setSchedule sc
      (some { x.advance with wait := some x.slotTime })) sc now
    rw [setSchedule_schedule] at hf
    exact ⟨hset.trans htp, fun _ => hf.eq_some, fun hn => absurd hn hg⟩

/-! ### A start that a second makes (R20, R30) -/

/-- R30: the record of a screen that a second has started. -/
structure Shc.Started (c : Shc) (i : Nat) (side : Side) (d : Shc) : Prop where
  state : d.state = .preparing
  prep : d.prep = .start
  current : d.current = i
  motor : d.motor side = true
  entry : (d.entry i).state = .armed
  setup : d.setup = c.setup

theorem Shc.Started.timed {side : Side} (h : c.Started i side (s.shc.get sc)) (k : Timed sc s t) :
    c.Started i side (t.shc.get sc) := by
  rw [k.record]
  exact ⟨h.state, h.prep, h.current, h.motor, h.entry, h.setup⟩

/-- R20: a start in a second, on a state that its schedule and its notices alone tell from `s`. -/
theorem bringUp_started (h : Timed sc s t) (hs : s.Startable sc i r)
    (hl : (t.alc.get (sc.proj r.side)).state = .stable) :
    (s.shc.get sc).Started i r.side ((t.bringUp sc .start i r false .start).shc.get sc) ∧
      ((t.bringUp sc .start i r false .start).shc.get sc).schedule =
        (t.shc.get sc).schedule.map Schedule.clearMisses ∧
      Noted s.cnl (t.bringUp sc .start i r false .start).cnl ∧
      (t.bringUp sc .start i r false .start).bck = s.bck ∧
      .motorOnCommand (sc.proj r.side) ∈ (t.bringUp sc .start i r false .start).events ∧
      .post sc .show_ (s.shc.get sc).setup.preShow ∈ (t.bringUp sc .start i r false .start).events := by
  obtain ⟨-, hfirst, hentry, -, -, -⟩ := hs
  have hsame (k : Nat) : (t.shc.get sc).entry k = (s.shc.get sc).entry k := by rw [h.record]; rfl
  have hlt : i < ((t.shc.get sc).bank (t.shc.get sc).active).length :=
    length_of_kind_ne_empty
      (by rw [hsame, (show ((s.shc.get sc).entry i).kind = .reel r from kind_of_resolveFrom.1 _ _ hfirst)]; nofun)
  have hup := ((Acts.start (l := [.trm (sc.proj r.side)]) (sc := sc) t).bringUpArmed (kind := .start) (r := r) (i := i)
    (by simp) (by rw [hsame, hentry]; nofun) (by simp) false .start (by rw [hl]; rfl)).1 hl
  refine ⟨?_, ?_, h.noted.trans hup.noted, Eq.trans (hup.keeps .bck (by simp)) h.bck, ?_, ?_⟩
  · rw [hup.shc]
    refine ⟨by cases r.side <;> rfl, by cases r.side <;> rfl, by cases r.side <;> rfl, Shc.setMotor_self _ _, ?_, ?_⟩
    · rw [setMotor_entry]
      exact congrArg Entry.state ((Shc.modEntry_entry _ _ _).trans (if_pos ⟨rfl, hlt⟩))
    · rw [Shc.modEntry, setBank_record, ← h.setup]
      cases r.side <;> rfl
  · rw [hup.shc, Shc.modEntry, setBank_record]
    cases r.side <;> rfl
  · rw [hup.events]
    simp
  · rw [hup.events, ← h.setup]
    simp [Shc.upEvents]

theorem startedWith_spec (hs : s.Startable sc i r) (hl : (s.alc.get (sc.proj r.side)).state = .stable)
    (a : Option Schedule) :
    (s.shc.get sc).Started i r.side ((s.startedWith sc i r a).shc.get sc) ∧
      ((s.startedWith sc i r a).shc.get sc).schedule = a.map Schedule.clearMisses ∧
      Noted s.cnl (s.startedWith sc i r a).cnl ∧ (s.startedWith sc i r a).bck = s.bck ∧
      .motorOnCommand (sc.proj r.side) ∈ (s.startedWith sc i r a).events ∧
      .post sc .show_ (s.shc.get sc).setup.preShow ∈ (s.startedWith sc i r a).events := by
  have ht := ((Timed.refl (sc := sc) s).noteFault (i + 1) ((s.shc.get sc).next i)).setSchedule a
  obtain ⟨halc, -, -⟩ := noteFault_machines (sc := sc) s (i + 1) ((s.shc.get sc).next i)
  have hstart := bringUp_started ht hs (by rw [State.setSchedule, State.modShc, halc]; exact hl)
  rw [setSchedule_schedule] at hstart
  exact hstart

theorem Holds.cleared (h : Holds a x) : Holds (a.map Schedule.clearMisses) x.clearMisses :=
  ⟨fun hl => by rw [h.1 hl]; rfl, fun hl hw => by rw [h.2 hl hw]; rfl⟩

theorem slotSecond_of_early (h : ∀ x, (s.shc.get sc).schedule = some x → x.due now = false) :
    s.slotSecond sc now = s := by
  refine slotSecond_of_idle fun x hx => h x ?_
  unfold State.running at hx
  split at hx
  · next y hy =>
    split at hx
    · cases hx
    · rw [hy, hx]
  · cases hx

/-- A schedule held differs from the one stated in what slot k's time does not read. -/
theorem State.Missed.early {after : Cnl} (h : s.Missed sc y reason slot a after) (hd : y.due now = false) :
    ∀ x, a = some x → x.due now = false := by
  obtain ⟨-, hsus, hsome, hnone⟩ := h
  intro x hx
  by_cases hl : y.Left
  · by_cases hm : (s.shc.get sc).setup.limit ≤ y.miss
    · obtain rfl : { y with suspended := true } = x := by simpa [hsus hl hm] using hx
      exact hd
    · obtain ⟨flag, hy⟩ := hsome hl (Nat.not_le.1 hm)
      obtain rfl : { y with preStrike := flag } = x := by simpa [hy] using hx
      exact hd
  · rw [hnone hl] at hx
    cases hx

/-- R19: what is left of a second in which no slot is due. -/
theorem earlyStage (h : ∀ x, (s.shc.get sc).schedule = some x → x.due now = false) :
    Timed sc s ((s.slotSecond sc now).preStrikeSecond sc now) ∧ Flagged (s.shc.get sc).schedule
      (((s.slotSecond sc now).preStrikeSecond sc now).shc.get sc).schedule := by
  rw [slotSecond_of_early h]
  exact preStrikeSecond_spec s sc now

theorem eq_of_settle (h : x.settle = some z) : z = x := by
  unfold Schedule.settle at h
  split at h
  · cases h
  · exact (Option.some.inj h).symm

/-- The start test reads the banks, the setup and the machines. -/
theorem StartBlocked.congr (h : Timed sc s t) (k : KeepsAllBut s t [.cnl, .shc sc]) (hb : s.StartBlocked sc why) :
    t.StartBlocked sc why := by
  have hbsu : t.bsu = s.bsu := k .bsu (by simp)
  have htrm (p : Proj) : t.trm.get p = s.trm.get p := k (.trm p) (by simp)
  have halc (p : Proj) : t.alc.get p = s.alc.get p := k (.alc p) (by simp)
  unfold State.StartBlocked State.trimPasses at *
  rw [h.record, hbsu]
  simp only [htrm, halc]
  exact hb

theorem keeps_missSlot (s : State) (sc : Screen) (x : Schedule) (reason : SchedReason) (slot : Nat) :
    KeepsAllBut s (s.missSlot sc x reason slot) [.cnl, .shc sc] := by
  have hnote (t : State) (o : NoticeBody) : KeepsAllBut t (t.note o) [.cnl, .shc sc] := (keeps_note t o).mono (by simp)
  have hset (t : State) (a : Option Schedule) : KeepsAllBut t (t.setSchedule sc a) [.cnl, .shc sc] :=
    (keeps_modShc t sc fun c => { c with schedule := a }).mono (by simp)
  unfold State.missSlot
  dsimp only
  split
  · exact (hnote _ _).trans (hset _ _)
  · split
    · exact ((hnote _ _).trans (hset _ _)).trans (hnote _ _)
    · exact (hnote _ _).trans (hset _ _)

/-- R23: the pre-strike of slot k, its first entry a REEL. -/
theorem slotPreStrike_of_reel (hp : x.preStrike = false) (hl : x.Left) (hf : (s.shc.get sc).first = .reel i r)
    (now : Nat) : s.slotPreStrike sc x now =
      if x.slotTime - (s.alc.get (sc.proj r.side)).setup.lead ≤ now ∧ now < x.slotTime then
        if (s.shc.get sc).state = .idle ∧ ((s.shc.get sc).entry i).state = .confirmed ∧
            (s.alc.get (sc.proj r.side)).state = .dark then
          ((s.setSchedule sc (some { x with preStrike := true })).askStrike (sc.proj r.side)).2
        else s.setSchedule sc (some { x with preStrike := true })
      else s := by
  unfold State.slotPreStrike
  dsimp only
  rw [if_neg (by simp [hp, (exhausted_iff x).2 hl]), hf, noteFault_of_no_fault (by simp)]

/-- Settles O22: slot k without and behind a start wait. -/
theorem slotsAreTakenOrMissed : Obligations.SlotsAreTakenOrMissed := by
  refine ⟨fun sc now y s => ?_, fun sc now w y s => ?_⟩
  · intro x c slot gone hw hi hy hs hwait hleft
    have run : exec x s = _ := congrArg Host.Outcome.next (boothSecond_of_plan (s := s.taken x) (sc := sc) hw hi now)
    have hmoves := (Moves.refl (sc := sc) (s.taken x)).boothSecond now
    rw [boothSecond_of_plan (s := s.taken x) hw hi] at hmoves
    have hwaits : (s.taken x).waitSecond sc now = s.taken x :=
      waitSecond_of_none (running_of_some (s := s.taken x) hy hs) hwait
    rw [hwaits] at run hmoves
    refine ⟨_, run, hmoves.seen, ?_⟩
    intro u
    refine ⟨fun hdue => ?_, fun i r hbefore hfirst => ?_⟩
    · have hd : y.due now = true := (due_iff y now).2 ⟨hleft, hdue⟩
      refine ⟨fun hb => ?_, fun i r hidle hst hl => ?_, fun why hidle hb => ?_⟩
      · obtain ⟨ht, hm⟩ := slotStage_of_busy (s := s.taken x) hy hs hwait hd hb
        exact ⟨ht.state, hm⟩
      · obtain ⟨hstart, hplan, -, -, hon, hpost⟩ := startedWith_spec (s := s.taken x) hst hl y.advance.settle
        have hsec : (s.taken x).slotSecond sc now = (s.taken x).startedWith sc i r y.advance.settle :=
          (slotSecond_of_due (running_of_some (s := s.taken x) hy hs) hd).trans
            (dealSlot_of_startable (s := s.taken x) hidle hst y now)
        have hholds := (holds_settle y.advance).cleared
        rw [← hplan, ← hsec] at hholds
        rw [← hsec] at hstart hon hpost
        obtain ⟨ht, hf⟩ := preStrikeSecond_spec ((s.taken x).slotSecond sc now) sc now
        have hnow := hstart.timed ht
        exact ⟨hnow.state, hnow.prep, hnow.current, hnow.motor, hnow.entry, ht.events _ hon, ht.events _ hpost,
          hholds.flagged hf⟩
      · obtain ⟨ht, hopen, hm⟩ := slotStage_of_blocked (s := s.taken x) hy hs hwait hd hidle hb
        exact ⟨ht.state.trans hidle, hopen, hm⟩
    · intro p a
      have hd : y.due now = false := by
        rw [← Bool.not_eq_true, due_iff]
        exact fun h => Nat.not_le.2 hbefore h.2
      have hsec : (s.taken x).slotSecond sc now = s.taken x := slotSecond_of_early fun z hz => by
        obtain rfl := Option.some.inj (hy.symm.trans hz)
        exact hd
      have hpre : ((s.taken x).slotSecond sc now).preStrikeSecond sc now = (s.taken x).slotPreStrike sc y now := by
        rw [hsec]
        unfold State.preStrikeSecond
        simp only [running_of_some (s := s.taken x) hy hs]
      refine ⟨fun h => hpre.trans ?_, fun hp hlead => ?_⟩
      · cases hp : y.preStrike with
        | true => exact slotPreStrike_of_made hp now
        | false =>
          refine (slotPreStrike_of_reel (s := s.taken x) hp hleft hfirst now).trans (if_neg fun hl => ?_)
          exact h.elim (fun hp' => by rw [hp] at hp'; cases hp') fun hn => Nat.not_le.2 hn hl.1
      · have ht := hpre.trans ((slotPreStrike_of_reel (s := s.taken x) hp hleft hfirst now).trans
          (if_pos ⟨hlead, hbefore⟩))
        have hset : ((s.taken x).setSchedule sc (some { y with preStrike := true })).shc.get sc =
            { c with schedule := some { y with preStrike := true } } := Quad.get_set_self ..
        by_cases hk : c.state = .idle ∧ (c.entry i).state = .confirmed ∧ a.state = .dark
        · replace ht := ht.trans (if_pos hk)
          obtain ⟨es, hask⟩ := Acts.asked ((s.taken x).setSchedule sc (some { y with preStrike := true })) sc p
          obtain ⟨hstr, -⟩ := askStrike_alc (s := (s.taken x).setSchedule sc (some { y with preStrike := true }))
            (p := p)
            hk.2.2
          rw [show u = _ from congrArg (fun t : State => t.shc.get sc) ht, ht]
          exact ⟨hask.shc.trans hset, fun _ _ _ => hstr, fun hn => by tauto⟩
        · replace ht := ht.trans (if_neg hk)
          rw [show u = _ from congrArg (fun t : State => t.shc.get sc) ht, ht]
          exact ⟨hset, fun h1 h2 h3 => absurd ⟨h1, h2, h3⟩ hk, fun _ => rfl⟩
  · intro x c slot closed missed hw hi hy hs hwait
    have run : exec x s = _ := congrArg Host.Outcome.next (boothSecond_of_plan (s := s.taken x) (sc := sc) hw hi now)
    have hmoves := (Moves.refl (sc := sc) (s.taken x)).boothSecond now
    rw [boothSecond_of_plan (s := s.taken x) hw hi] at hmoves
    have hwaits : (s.taken x).waitSecond sc now = (s.taken x).dealWait sc y w now :=
      waitSecond_of_some (running_of_some (s := s.taken x) hy hs) hwait
    rw [hwaits] at run hmoves
    generalize hdealt : (s.taken x).dealWait sc y w now = t at run hmoves
    refine ⟨_, run, hmoves.seen, ?_⟩
    intro u
    have hbusy (hb : c.state ≠ .idle) : t = (s.taken x).setSchedule sc closed.settle :=
      hdealt.symm.trans (dealWait_of_busy (s := s.taken x) hb y w now)
    have hstarts {i : Nat} {r : Reel} (hidle : c.state = .idle) (hst : s.Startable sc i r) :
        t = (s.taken x).startedWith sc i r closed.settle :=
      hdealt.symm.trans (dealWait_of_startable (s := s.taken x) hidle hst y w now)
    have hblock {why : NotReady} (hidle : c.state = .idle) (hb : s.StartBlocked sc why) :
        t = if w + c.setup.grace ≤ now ∨ y.due now = true then
          ((s.taken x).testStart sc).2.missSlot sc closed why.missed w else ((s.taken x).testStart sc).2 :=
      hdealt.symm.trans (dealWait_of_blocked (s := s.taken x) hidle hb y w now)
    have htest := Timed.of_keeps (sc := sc) (testStart_frame (s.taken x) sc).1 (testStart_frame (s.taken x) sc).2
    refine ⟨fun hearly => ?_, fun hleft hdue => ?_⟩
    · have hd : y.due now = false := by
        rw [← Bool.not_eq_true, due_iff]
        exact fun h => hearly.elim (fun hn => hn h.1) fun hn => Nat.not_le.2 hn h.2
      have hsettled (z : Schedule) (hz : closed.settle = some z) : z.due now = false := by
        rw [eq_of_settle hz]
        exact hd
      refine ⟨fun hb => ?_, fun i r hidle hst hl => ?_, fun why hidle hb => ?_⟩
      · have ht := (Timed.refl (sc := sc) (s.taken x)).setSchedule closed.settle
        have hplan := setSchedule_schedule (s.taken x) sc closed.settle
        rw [← hbusy hb] at ht hplan
        obtain ⟨hrest, hf⟩ := earlyStage (s := t) (sc := sc) (now := now) (by rw [hplan]; exact hsettled)
        rw [hplan] at hf
        exact ⟨(ht.trans hrest).state, (ht.trans hrest).noted, (holds_settle closed).flagged hf⟩
      · obtain ⟨hstart, hplan, -, -, hon, -⟩ := startedWith_spec (s := s.taken x) hst hl closed.settle
        rw [← hstarts hidle hst] at hstart hplan hon
        obtain ⟨hrest, hf⟩ := earlyStage (s := t) (sc := sc) (now := now) (by
          rw [hplan]
          intro z hz
          obtain ⟨z', hz', rfl⟩ := Option.map_eq_some_iff.1 hz
          exact hsettled z' hz')
        rw [hplan] at hf
        have hnow := hstart.timed hrest
        exact ⟨hnow.state, hnow.prep, hnow.current, hrest.events _ hon, (holds_settle closed).cleared.flagged hf⟩
      · have htd := hblock hidle hb
        by_cases hg : w + c.setup.grace ≤ now
        · rw [if_pos (.inl hg)] at htd
          obtain ⟨hmt, hm⟩ := missSlot_spec ((s.taken x).testStart sc).2 sc (x := closed) rfl why.missed w
          rw [← htd] at hmt hm
          obtain ⟨hrest, hf⟩ := earlyStage (s := t) (sc := sc) (now := now) (hm.early hd)
          exact ⟨((htest.trans hmt).trans hrest).state.trans hidle, fun hn => absurd hg (Nat.not_le.2 hn), fun _ =>
            (hm.flagged hf hrest.noted).before htest.noted htest.bck htest.setup⟩
        · rw [if_neg (by simp [hg, hd])] at htd
          rw [← htd] at htest
          have hplan : (t.shc.get sc).schedule = some y := by
            have hshc := (testStart_frame (s.taken x) sc).1 (.shc sc) (by simp)
            rw [← htd] at hshc
            exact (congrArg Shc.schedule hshc).trans hy
          obtain ⟨hrest, hf⟩ := earlyStage (s := t) (sc := sc) (now := now) (fun z hz => by
            obtain rfl := Option.some.inj (hplan.symm.trans hz)
            exact hd)
          rw [hplan] at hf
          exact ⟨(htest.trans hrest).state.trans hidle, fun _ => hf.eq_some, fun hn => absurd hn hg⟩
    · have hd : y.due now = true := (due_iff y now).2 ⟨hleft, hdue⟩
      have hclosed : closed.settle = some closed := settle_of_left hleft
      refine ⟨fun hb => ?_, fun i r hidle hst hl => ?_, fun why hidle hb => ?_⟩
      · have ht := (Timed.refl (sc := sc) (s.taken x)).setSchedule closed.settle
        have hplan := setSchedule_schedule (s.taken x) sc closed.settle
        rw [← hbusy hb] at ht hplan
        obtain ⟨hrest, hm⟩ := slotStage_of_busy (hplan.trans hclosed) hs rfl hd (by rw [ht.state]; exact hb)
        exact ⟨(ht.trans hrest).state, hm.before ht.noted ht.bck ht.setup⟩
      · obtain ⟨hstart, hplan, hnoted, hbck, hon, -⟩ := startedWith_spec (s := s.taken x) hst hl closed.settle
        rw [← hstarts hidle hst] at hstart hplan hnoted hbck hon
        rw [hclosed] at hplan
        obtain ⟨hrest, hm⟩ := slotStage_of_busy hplan hs rfl hd (by rw [hstart.state]; nofun)
        have hnow := hstart.timed hrest
        exact ⟨hnow.state, hnow.prep, hnow.current, hrest.events _ hon, hm.before hnoted hbck hstart.setup⟩
      · have htd := hblock hidle hb
        rw [if_pos (.inr hd)] at htd
        obtain ⟨hmt, hm⟩ := missSlot_spec ((s.taken x).testStart sc).2 sc (x := closed) rfl why.missed w
        have hkeep := keeps_missSlot ((s.taken x).testStart sc).2 sc closed why.missed w
        rw [← htd] at hmt hm hkeep
        replace hm := hm.before htest.noted htest.bck htest.setup
        have ht := htest.trans hmt
        have hblocked : t.StartBlocked sc why :=
          StartBlocked.congr ht (((testStart_frame (s.taken x) sc).1.mono (by simp)).trans hkeep) hb
        obtain ⟨htold, hsus, hsome, -⟩ := hm
        by_cases hlim : c.setup.limit ≤ missed.miss
        · have hplan := hsus hleft hlim
          obtain ⟨hrest, hf⟩ := preStrikeSecond_spec t sc now
          have hsec : t.slotSecond sc now = t :=
            slotSecond_of_idle fun z hz => by rw [running_of_suspended hplan rfl] at hz; cases hz
          have hpre : (t.slotSecond sc now).preStrikeSecond sc now = t.preStrikeSecond sc now := by rw [hsec]
          rw [hplan] at hf
          rw [← hpre] at hrest hf
          exact ⟨(ht.trans hrest).state.trans hidle, htold.after hrest.noted, fun _ => hf.eq_suspended rfl,
            fun hn => absurd hn (Nat.not_lt.2 hlim)⟩
        · obtain ⟨flag, hplan⟩ := hsome hleft (Nat.not_le.1 hlim)
          obtain ⟨hrest, hopen, hgone⟩ := slotStage_of_blocked hplan hs rfl hd (by rw [ht.state]; exact hidle) hblocked
          rw [ht.setup] at hopen hgone
          exact ⟨(ht.trans hrest).state.trans hidle, htold.after hrest.noted, fun h => absurd h hlim,
            fun _ => ⟨hopen, fun hg => (hgone hg).before ht.noted ht.bck ht.setup⟩⟩

end Sys2Proof.Machine
end

section
namespace Sys2Proof.Machine

variable {sc : Screen} {c d : Shc} {s t u : State} {p : Proj} {i n now lead : Nat} {r : Reel} {w : PendingSwitch}
  {x : Schedule} {reply : Option Reply}

/-! ## A pending switch (R14 to R16) -/

/-- R15: the schedule that a switch brings. -/
def PendingSwitch.schedule (w : PendingSwitch) : Schedule := ⟨w.t0, w.tc, w.np, 0, 0, false, none, false⟩

/-- R15: the notice of a switch taken on `s`. -/
def State.switchTaken (s : State) (sc : Screen) (w : PendingSwitch) : Cnl :=
  s.cnl.raise ⟨s.bck.time, .switch sc true w.t0 w.tc w.np⟩

/-- R15: the state in which a switch has been taken with `n` slots skipped. -/
def State.switched (s : State) (sc : Screen) (w : PendingSwitch) (n : Nat) (held : Option Schedule) : State := { s with
  shc := s.shc.set sc { (s.shc.get sc).takeSwitch w with schedule := held }
  cnl := if n = 0 then s.switchTaken sc w else
    (s.switchTaken sc w).raise ⟨s.bck.time, .schedule sc .skipped (some .lateSwitch) (min 255 n) w.t0⟩ }

/-- R16: the slots whose grace is over when a switch is taken, and the schedule left. -/
structure Late (w : PendingSwitch) (grace now n : Nat) (held : Option Schedule) : Prop where
  gone : ∀ j, j < n → ({ w.schedule with k := j } : Schedule).Left ∧ w.t0 + j * w.tc + grace < now
  next : ({ w.schedule with k := n } : Schedule).Left → now ≤ w.t0 + n * w.tc + grace
  fresh : n = 0 → held = some w.schedule
  skipped : 0 < n → Holds held { w.schedule with k := n }

theorem takeSwitch_eq (s : State) (sc : Screen) (w : PendingSwitch) (now : Nat) :
    ∃ n held, Late w (s.shc.get sc).setup.grace now n held ∧ s.takeSwitch sc w now = s.switched sc w n held := by
  obtain ⟨n, hall, hstop, hzero, hpos⟩ :=
    skip_spec ((s.modShc sc (·.takeSwitch w)).note (.switch sc true w.t0 w.tc w.np))
    sc w.schedule (fun t => t + (s.shc.get sc).setup.grace < now) .lateSwitch
  have hgone (j : Nat) (hj : j < n) :
      ({ w.schedule with k := j } : Schedule).Left ∧ w.t0 + j * w.tc + (s.shc.get sc).setup.grace < now := by
    simpa [PendingSwitch.schedule] using hall j hj
  have hnext : ({ w.schedule with k := n } : Schedule).Left → now ≤ w.t0 + n * w.tc + (s.shc.get sc).setup.grace := by
    simpa [PendingSwitch.schedule] using hstop
  by_cases hn : n = 0
  · refine ⟨n, some w.schedule, ⟨hgone, hnext, fun _ => rfl, fun h => absurd hn (by omega)⟩, ?_⟩
    refine (hzero hn).trans ?_
    subst hn
    rfl
  · refine ⟨n, _, ⟨hgone, hnext, fun h => absurd h hn, fun _ => holds_settle _⟩, ?_⟩
    refine (hpos (by omega)).trans ?_
    simp [State.switched, State.switchTaken, State.modShc, State.note, State.modCnl, hn, PendingSwitch.schedule,
      Schedule.slotTime]

theorem Late.eq_zero {grace : Nat} {held : Option Schedule} (h : Late w grace now n held) (hn : now ≤ w.t0 + grace) :
    n = 0 := by
  by_contra h0
  have hgone := (h.gone 0 (by omega)).2
  omega

theorem testSwitch_of_taken (hw : (s.shc.get sc).switch = some w) (hi : (s.shc.get sc).state = .idle)
    (hl : w.t0 - s.stagedLead sc ≤ now) : s.testSwitch sc now = s.takeSwitch sc w now := by
  unfold State.testSwitch
  dsimp only
  rw [hw]
  exact if_pos ⟨hi, hl⟩

theorem testSwitch_of_pending (hw : (s.shc.get sc).switch = some w)
    (h : ¬((s.shc.get sc).state = .idle ∧ w.t0 - s.stagedLead sc ≤ now)) : s.testSwitch sc now = s := by
  unfold State.testSwitch
  dsimp only
  rw [hw]
  exact if_neg h

theorem stagedLead_of_reel (h : resolve ((s.shc.get sc).bank (s.shc.get sc).active.other) 0 = .reel i r) :
    s.stagedLead sc = (s.alc.get (sc.proj r.side)).setup.lead := by
  have hs : resolve ((s.shc.get sc).bank (s.shc.get sc).staged) 0 = .reel i r := h
  unfold State.stagedLead
  dsimp only
  rw [hs]

theorem keeps_switched (s : State) (sc : Screen) (w : PendingSwitch) (n : Nat) (held : Option Schedule) :
    KeepsAllBut s (s.switched sc w n held) [.cnl, .shc sc] :=
  ((keeps_modShc s sc fun c => { c.takeSwitch w with schedule := held }).mono (by simp)).trans
    ((keeps_modCnl _ fun _ => (s.switched sc w n held).cnl).mono (by simp))

/-- The record of a screen in which a switch has been taken. -/
theorem switched_shc (s : State) (sc : Screen) (w : PendingSwitch) (n : Nat) (held : Option Schedule) :
    (s.switched sc w n held).shc.get sc = { (s.shc.get sc).takeSwitch w with schedule := held } := Quad.get_set_self ..

theorem takeSwitch_state (c : Shc) (w : PendingSwitch) : (c.takeSwitch w).state = c.state := by
  unfold Shc.takeSwitch
  rw [setBank_record]

theorem takeSwitch_bank (c : Shc) (w : PendingSwitch) :
    (c.takeSwitch w).bank c.active = (c.bank c.active).map Entry.unload ∧
      (c.takeSwitch w).bank c.active.other = c.bank c.active.other := by
  cases hb : c.active <;> simp [Shc.takeSwitch, Shc.setBank, Shc.bank, BankId.other, hb]

theorem unload_empty_or (e : Entry) : e.unload.kind = .empty ∨ (e.unload.state = .loaded ∧ e.unload.short = false) := by
  unfold Entry.unload
  split
  · next h => exact .inl h
  · exact .inr ⟨rfl, rfl⟩

/-! ### The entry into IDLE (R15, R16) -/

/-- A screen's record has come into IDLE, its programme and what is pending as they were. -/
structure Shc.Laid (c d : Shc) : Prop where
  state : d.state = .idle
  active : d.active = c.active
  switch : d.switch = c.switch
  schedule : d.schedule = c.schedule
  setup : d.setup = c.setup
  staged : d.bank c.active.other = c.bank c.active.other

/-- R15: what a pending switch makes of a screen that has entered IDLE in `t`. -/
def EntersIdle (s : State) (sc : Screen) (w : PendingSwitch) (lead : Nat) (t : State) (reply : Option Reply) : Prop :=
  let c := s.shc.get sc
  KeepsAllBut s t (screenParts sc) ∧
    (let d := t.shc.get sc
     d.state = .idle ∧ d.bank c.active.other = c.bank c.active.other ∧
     (w.t0 - lead ≤ s.bck.time → d.active = c.active.other ∧ d.switch = none ∧
      (∀ e, e ∈ d.bank c.active → e.kind = .empty ∨ (e.state = .loaded ∧ e.short = false)) ∧
      (s.bck.time ≤ w.t0 + c.setup.grace → d.schedule = some w.schedule) ∧
      ∃ (before after : List Notice) (base : Cnl),
        base = (before ++ [(⟨s.bck.time, .switch sc true w.t0 w.tc w.np⟩ : Notice)] ++ after).foldl Cnl.raise s.cnl ∧
        t.cnl = reply.elim base base.fill) ∧
     (s.bck.time < w.t0 - lead → d.active = c.active ∧ d.switch = some w ∧ d.schedule = c.schedule))

theorem testSwitch_entersIdle (hw : (s.shc.get sc).switch = some w) (hlaid : (s.shc.get sc).Laid (t.shc.get sc))
    (hn : Noted s.cnl t.cnl) (hb : t.bck = s.bck) (hl : t.stagedLead sc = lead)
    (hk : KeepsAllBut s (t.testSwitch sc t.bck.time) (screenParts sc)) :
    EntersIdle s sc w lead (t.testSwitch sc t.bck.time) none := by
  have htw : (t.shc.get sc).switch = some w := hlaid.switch.trans hw
  rw [hb] at hk ⊢
  by_cases hdue : w.t0 - lead ≤ s.bck.time
  · obtain ⟨n, held, hlate, heq⟩ := takeSwitch_eq t sc w s.bck.time
    have htake : t.testSwitch sc s.bck.time = t.switched sc w n held :=
      (testSwitch_of_taken htw hlaid.state (by rw [hl]; exact hdue)).trans heq
    rw [htake] at hk ⊢
    obtain ⟨hbank, hother⟩ := takeSwitch_bank (t.shc.get sc) w
    rw [hlaid.active] at hbank hother
    refine ⟨hk, ?_⟩
    intro d
    have hd : d = { (t.shc.get sc).takeSwitch w with schedule := held } := switched_shc t sc w n held
    rw [hd]
    refine ⟨(takeSwitch_state (t.shc.get sc) w).trans hlaid.state, hother.trans hlaid.staged, fun _ =>
      ⟨?_, rfl, ?_, fun hg => ?_, ?_⟩,
      fun h => absurd hdue (Nat.not_le.2 h)⟩
    · exact congrArg BankId.other hlaid.active
    · intro e he
      replace he : e ∈ ((t.shc.get sc).bank (s.shc.get sc).active).map Entry.unload := hbank ▸ he
      obtain ⟨e', -, rfl⟩ := List.mem_map.1 he
      exact unload_empty_or e'
    · exact hlate.fresh (hlate.eq_zero (by rw [hlaid.setup]; exact hg))
    · obtain ⟨before, hbefore⟩ := hn
      have hcnl : (t.switched sc w n held).cnl = if n = 0 then t.switchTaken sc w else
        (t.switchTaken sc w).raise ⟨t.bck.time, .schedule sc .skipped (some .lateSwitch) (min 255 n) w.t0⟩ := rfl
      have htaken : t.switchTaken sc w =
          (before ++ [(⟨s.bck.time, .switch sc true w.t0 w.tc w.np⟩ : Notice)]).foldl Cnl.raise s.cnl := by
        rw [List.foldl_append, ← hbefore, ← hb]
        rfl
      by_cases h0 : n = 0
      · rw [if_pos h0, htaken] at hcnl
        exact ⟨before, [], _, rfl, by rw [hcnl, List.append_nil]; rfl⟩
      · rw [if_neg h0, htaken] at hcnl
        exact ⟨before, [_], _, rfl, hcnl.trans (List.foldl_concat Cnl.raise _ _ _).symm⟩
  · have hstay : t.testSwitch sc s.bck.time = t := testSwitch_of_pending htw (by rw [hl]; exact fun h => hdue h.2)
    rw [hstay] at hk ⊢
    exact ⟨hk, hlaid.state, hlaid.staged, fun h => absurd h hdue,
      fun _ => ⟨hlaid.active, htw, hlaid.schedule⟩⟩

/-- R15: the answer of the request that led to IDLE. -/
theorem EntersIdle.answered (h : EntersIdle s sc w lead t none) (kind tag : Byte) (y : Result) :
    EntersIdle s sc w lead (t.answer kind tag y) (some ⟨kind + 0x80, tag, y, none, []⟩) := by
  obtain ⟨hk, hidle, hstaged, htaken, hstay⟩ := h
  refine ⟨hk.trans ((keeps_reply _ _ _ _ _ _).mono (by simp [screenParts])), hidle, hstaged, fun hl => ?_, hstay⟩
  obtain ⟨h1, h2, h3, h4, before, after, base, hbase, hcnl⟩ := htaken hl
  exact ⟨h1, h2, h3, h4, before, after, base, hbase, congrArg (Cnl.fill · ⟨kind + 0x80, tag, y, none, []⟩) hcnl⟩

/-! ### Ways into IDLE -/

theorem Shc.Laid.of_ended (ha : d.active = c.active) (hw : d.switch = c.switch) (hs : d.schedule = c.schedule)
    (hp : d.setup = c.setup) (hb : d.bank c.active.other = c.bank c.active.other) : c.Laid d.ended := by
  refine ⟨(ended_record d).1, ?_, ?_, ?_, ?_, ?_⟩
  · rw [← ha]; simp [Shc.ended, Shc.idle, Shc.mapActive]
  · rw [← hw]; simp [Shc.ended, Shc.idle, Shc.mapActive]
  · rw [← hs]; simp [Shc.ended, Shc.idle, Shc.mapActive]
  · rw [← hp]; simp [Shc.ended, Shc.idle, Shc.mapActive]
  · rw [← hb, ← ha]
    exact Shc.setBank_other _ _ _

/-- R37: a performance that ends, with nothing of the programme changed since `s`. -/
theorem endPerformance_entersIdle (hw : (s.shc.get sc).switch = some w)
    (hs : resolve ((s.shc.get sc).bank (s.shc.get sc).active.other) 0 = .reel i r)
    (hlaid : (s.shc.get sc).Laid (t.shc.get sc).ended) (hn : Noted s.cnl t.cnl) (hb : t.bck = s.bck)
    (hl : (t.alc.get (sc.proj r.side)).setup = (s.alc.get (sc.proj r.side)).setup)
    (hk : KeepsAllBut s (t.endPerformance sc) (screenParts sc)) :
    EntersIdle s sc w (s.alc.get (sc.proj r.side)).setup.lead (t.endPerformance sc) none := by
  have hend := (Acts.start (l := []) (sc := sc) t).ended
  have hlaid' : (s.shc.get sc).Laid ((t.ended sc).shc.get sc) := by rw [hend.shc]; exact hlaid
  rw [endPerformance_eq] at hk ⊢
  generalize t.ended sc = v at hend hlaid' hk ⊢
  refine testSwitch_entersIdle hw hlaid' (hn.trans hend.noted) (Eq.trans (hend.keeps .bck (by simp)) hb) ?_ hk
  rw [stagedLead_of_reel (i := i) (r := r) (by rw [hlaid'.active, hlaid'.staged]; exact hs), hend.alc, hl]

theorem putOut_setup (s : State) (p q : Proj) (cause : LampCause) :
    ((s.putOut p cause).alc.get q).setup = (s.alc.get q).setup := by
  by_cases hd : (s.alc.get p).state = .dark
  · rw [putOut_of_dark hd]
  · rw [putOut_of_not_dark hd, lampChange_eq, enter_of_not_striking (by simp)]
    by_cases hq : q = p
    · subst hq
      rw [Oct.get_set_self]
    · rw [Oct.get_set_ne _ _ hq]

theorem shcExtinguish_setup (s : State) (p q : Proj) :
    ((s.shcExtinguish p).alc.get q).setup = (s.alc.get q).setup := putOut_setup s p q _

theorem runoutLamp_setup (s : State) (p q : Proj) : ((s.runoutLamp p).alc.get q).setup = (s.alc.get q).setup := by
  unfold State.runoutLamp
  split
  · rfl
  · exact shcExtinguish_setup s p q

theorem unserve_setup (s : State) (p q : Proj) : ((s.unserve p).alc.get q).setup = (s.alc.get q).setup := by
  unfold State.unserve State.modAlc
  by_cases hq : q = p
  · subst hq
    rw [Oct.get_set_self]
  · rw [Oct.get_set_ne _ _ hq]

theorem aborted_setup (s : State) (sc : Screen) (q : Proj) :
    ((s.aborted sc).alc.get q).setup = (s.alc.get q).setup := by
  generalize hu : (s.modShc sc Shc.blackout).motorsOff sc = u
  have halc : u.alc = s.alc := by rw [← hu]; rfl
  have heq : (s.aborted sc).alc = (((((u.shcExtinguish (sc.proj .a)).shcExtinguish (sc.proj .b)).modShc sc
      Shc.abort).unserve (sc.proj .a)).unserve (sc.proj .b)).alc := by rw [← hu]; rfl
  rw [heq, unserve_setup, unserve_setup, ← halc]
  exact (shcExtinguish_setup _ _ _).trans (shcExtinguish_setup _ _ _)

/-- R40: an interval that ends with END next. -/
theorem endInterval_entersIdle (hw : (s.shc.get sc).switch = some w)
    (hs : resolve ((s.shc.get sc).bank (s.shc.get sc).active.other) 0 = .reel i r)
    (hv : t.shc.get sc = { s.shc.get sc with countdown := n }) (hc : t.cnl = s.cnl) (hb : t.bck = s.bck)
    (ha : t.alc = s.alc) (hn : (s.shc.get sc).next (s.shc.get sc).current = .finish)
    (ho : (s.shc.get sc).holding .runningOut = none) (hk : KeepsAllBut s (t.endInterval sc) (screenParts sc)) :
    EntersIdle s sc w (s.alc.get (sc.proj r.side)).setup.lead (t.endInterval sc) none := by
  have heq := endInterval_of_finish (s := t) (sc := sc) (by rw [hv]; exact hn) (by rw [hv]; exact ho)
  have hacts := (intervalDone_acts t sc).postShow (t.shc.get sc).setup.fin
  rw [heq] at hk ⊢
  refine endPerformance_entersIdle hw hs ?_ (hc ▸ hacts.noted) (Eq.trans (hacts.keeps .bck (by simp)) hb)
    (by rw [hacts.alc, ha]) hk
  rw [hacts.shc, hv]
  refine .of_ended ?_ ?_ ?_ ?_ ?_
  · rw [Shc.intervalDone, enter_record]
  · rw [Shc.intervalDone, enter_record]
  · rw [Shc.intervalDone, enter_record]
  · rw [Shc.intervalDone, enter_record]
  · exact Shc.setBank_other _ _ _

/-- R48: RESUME at an AFTER resume point with END next. -/
theorem resumeAfter_entersIdle {x : Instr} {tag : Byte} (hw : (s.shc.get sc).switch = some w)
    (hs : resolve ((s.shc.get sc).bank (s.shc.get sc).active.other) 0 = .reel i r)
    (hn : (s.shc.get sc).next n = .finish) :
    EntersIdle s sc w (s.alc.get (sc.proj r.side)).setup.lead (resumeAfter tag sc n (s.taken x))
      (some ⟨0xB1, tag, .done, none, []⟩) := by
  rw [resumeAfter_of_finish (s := s.taken x) hn]
  refine EntersIdle.answered ?_ 0x31 tag .done
  have hacts := ((Acts.start (l := []) (sc := sc) (s.taken x)).leaveHalt).postShow ((s.taken x).shc.get sc).setup.fin
  refine endPerformance_entersIdle hw hs ?_ hacts.noted (hacts.keeps .bck (by simp)) (by rw [hacts.alc]; rfl)
    (((Moves.refl (s.taken x)).leaveHalt.postShow _).endPerformance).seen
  rw [hacts.shc]
  exact .of_ended rfl rfl rfl rfl rfl

/-- R37: the runout that ends the performance. -/
theorem runoutSeen_entersIdle {j count : Nat} {q : Reel} (hw : (s.shc.get p.screen).switch = some w)
    (hs : resolve ((s.shc.get p.screen).bank (s.shc.get p.screen).active.other) 0 = .reel i r)
    (he : (s.shc.get p.screen).state = .ending) (ho : (s.shc.get p.screen).holdingOn .runningOut p.side = some (j, q))
    (hc : (s.shc.get p.screen).current = j) :
    EntersIdle s p.screen w (s.alc.get (p.screen.proj r.side)).setup.lead
      (runoutSeen p (s.taken (.runoutReached p count))) none := by
  obtain ⟨hlt, hkind, -, -⟩ := Shc.holdingOn_spec ho
  have hmoves := Moves.runoutSeen (p := p) (Moves.refl (s.taken (.runoutReached p count)))
  have hlast : (s.shc.get p.screen).LastTail j := .inl ⟨⟨q, by rw [hc, hkind]⟩, hc⟩
  have heq := (runoutSeen_of_some (s := s.taken (.runoutReached p count)) ho).trans (runOut_of_last he hlt hlast)
  rw [heq] at hmoves ⊢
  obtain ⟨es, hacts⟩ := ranOut_acts (s.taken (.runoutReached p count)) p j q
  refine endPerformance_entersIdle hw hs ?_ hacts.noted (hacts.keeps .bck (by simp)) ?_ hmoves.seen
  · rw [hacts.shc]
    refine .of_ended ?_ ?_ ?_ ?_ ?_ <;> unfold Shc.ranOut
    · rw [enter_record]
      cases p.side <;> rfl
    · rw [enter_record]
      cases p.side <;> rfl
    · rw [enter_record]
      cases p.side <;> rfl
    · rw [enter_record]
      cases p.side <;> rfl
    · cases p.side <;> exact Shc.setBank_other _ _ _
  · exact runoutLamp_setup _ _ _

/-- R49: ABORT. -/
theorem abort_entersIdle {x : Instr} (hw : (s.shc.get sc).switch = some w)
    (hs : resolve ((s.shc.get sc).bank (s.shc.get sc).active.other) 0 = .reel i r) :
    EntersIdle s sc w (s.alc.get (sc.proj r.side)).setup.lead ((s.taken x).abort sc) none := by
  have hk := (Moves.refl (sc := sc) (s.taken x)).abort.seen
  obtain ⟨es, hacts⟩ := aborted_acts (s.taken x) sc
  have hlaid : (s.shc.get sc).Laid (((s.taken x).aborted sc).shc.get sc) := by
    rw [hacts.shc, abort_record]
    refine ⟨rfl, ?_, ?_, ?_, ?_, Shc.setBank_other _ _ _⟩ <;> rw [setBank_record] <;> rfl
  have hsetup := aborted_setup (s.taken x) sc (sc.proj r.side)
  rw [abort_eq] at hk ⊢
  generalize (s.taken x).aborted sc = v at hacts hlaid hsetup hk ⊢
  refine testSwitch_entersIdle hw hlaid hacts.noted (hacts.keeps .bck (by simp)) ?_ hk
  rw [stagedLead_of_reel (i := i) (r := r) (by rw [hlaid.active, hlaid.staged]; exact hs)]
  exact congrArg (·.lead) hsetup

/-! ### The pre-strike of the schedule that a switch brings (R16, R23) -/

theorem keeps_slotPreStrike (hf : (s.shc.get sc).first = .reel i r) (x : Schedule) (now : Nat) :
    KeepsAllBut s (s.slotPreStrike sc x now) [.events, .cnl, .shc sc, .alc (sc.proj r.side)] := by
  by_cases h : x.preStrike = false ∧ x.Left
  · rw [slotPreStrike_of_reel h.1 h.2 hf]
    have hset (a : Option Schedule) : KeepsAllBut s (s.setSchedule sc a) [.events, .cnl, .shc sc,
      .alc (sc.proj r.side)] :=
      (keeps_modShc s sc fun c => { c with schedule := a }).mono (by simp)
    split
    · split
      · obtain ⟨es, hask⟩ := Acts.asked (s.setSchedule sc (some { x with preStrike := true })) sc (sc.proj r.side)
        exact (hset _).trans hask.keeps
      · exact hset _
    · exact KeepsAllBut.refl _ _
  · have hstay : s.slotPreStrike sc x now = s := by
      refine if_pos ?_
      rw [Bool.or_eq_true]
      by_contra hn
      push Not at hn
      exact h ⟨by simpa using hn.1, (exhausted_iff x).1 (by simpa using hn.2)⟩
    rw [hstay]
    exact KeepsAllBut.refl _ _

/-- Settles O23: a pending switch at a booth second, and at the entries into IDLE. -/
theorem pendingSwitchTakesEffect : Obligations.PendingSwitchTakesEffect := by
  intro sc now i w r s x c lead fresh unload exchanged taken hw hs
  have hlead : (s.taken x).stagedLead sc = lead := stagedLead_of_reel (s := s.taken x) hs
  have hplan (hi : c.state ≠ .interval) : boothSecond sc now (s.taken x) =
      ((((s.taken x).testSwitch sc now).waitSecond sc now).slotSecond sc now).preStrikeSecond sc now := by
    unfold boothSecond
    rw [intervalSecond_of_other (s := s.taken x) (.inl hi)]
  have hswitch (hi : c.state = .idle) (hl : w.t0 - lead ≤ now) : ∃ n held, Late w c.setup.grace now n held ∧
      exec x s = exec x (s.switched sc w n held) := by
    obtain ⟨n, held, hlate, heq⟩ := takeSwitch_eq (s.taken x) sc w now
    have hrec : (((s.taken x).switched sc w n held).shc.get sc) = { c.takeSwitch w with schedule := held } :=
      switched_shc (s.taken x) sc w n held
    have htest : (s.taken x).testSwitch sc now = (s.taken x).switched sc w n held :=
      (testSwitch_of_taken (s := s.taken x) hw hi (by rw [hlead]; exact hl)).trans heq
    refine ⟨n, held, hlate, congrArg Host.Outcome.next ?_⟩
    refine (hplan (by rw [hi]; nofun)).trans ?_
    rw [htest]
    refine (boothSecond_of_plan (s := (s.taken x).switched sc w n held) ?_ ?_ now).symm
    · exact (congrArg Shc.switch hrec).trans rfl
    · rw [hrec]
      exact .inl (by rw [show ({ c.takeSwitch w with schedule := held } : Shc).state = _ from
        (takeSwitch_state c w).trans hi]; nofun)
  refine ⟨fun hi hl => ?_, fun hi hl hb => ?_, fun h hn => ?_, ?_⟩
  · obtain ⟨n, held, hlate, heq⟩ := hswitch hi hl
    exact ⟨n, held, hlate.gone, hlate.next, hlate.fresh, hlate.skipped, heq⟩
  · obtain ⟨n, held, hlate, heq⟩ := hswitch hi hl
    obtain rfl := hlate.eq_zero (by omega)
    obtain rfl := hlate.fresh rfl
    have hrec : (((s.switched sc w 0 (some fresh)).taken x).shc.get sc) = exchanged (some fresh) :=
      switched_shc s sc w 0 (some fresh)
    have hkept : KeepsAllBut s ((s.switched sc w 0 (some fresh)).taken x)
        [.events, .cnl, .shc sc, .alc (sc.proj r.side)] :=
      ((keeps_switched s sc w 0 (some fresh)).mono (by simp)).trans ((keeps_taken _ x).mono (by simp))
    have hcnl : ((s.switched sc w 0 (some fresh)).taken x).cnl = s.cnl.raise taken := rfl
    have hidle : (exchanged (some fresh)).state = .idle := (takeSwitch_state c w).trans hi
    have hfirst : (exchanged (some fresh)).first = .reel i r :=
      (congrArg (resolve · 0) (takeSwitch_bank c w).2).trans hs
    replace heq : exec x s = .next (boothSecond sc now ((s.switched sc w 0 (some fresh)).taken x)) := heq
    generalize (s.switched sc w 0 (some fresh)).taken x = v at hrec hkept hcnl heq
    have hrun : v.running sc = some fresh := running_of_some (by rw [hrec]) rfl
    have hnow : fresh.due now = false := by
      rw [← Bool.not_eq_true, due_iff]
      exact fun h => Nat.not_le.2 hb (by simpa [Schedule.slotTime, fresh] using h.2)
    have hsec : v.slotSecond sc now = v := slotSecond_of_idle fun z hz => by
      obtain rfl := Option.some.inj (hrun.symm.trans hz)
      exact hnow
    have hpre : v.preStrikeSecond sc now = v.slotPreStrike sc fresh now := by
      unfold State.preStrikeSecond
      simp only [hrun]
    rw [boothSecond_of_plan (by rw [hrec]) (.inl (by rw [hrec, hidle]; nofun)), waitSecond_of_none hrun rfl, hsec]
      at heq
    obtain ⟨ht, hf⟩ := preStrikeSecond_spec v sc now
    rw [hrec] at hf
    refine ⟨_, heq, hkept.trans ?_, hcnl ▸ ht.noted, ?_⟩
    · rw [hpre]
      exact keeps_slotPreStrike (by rw [hrec]; exact hfirst) fresh now
    · obtain ⟨flag, hflag⟩ := hf.eq_some
      exact ⟨flag, by rw [ht.record, hflag, hrec]⟩
  · have hstay : (s.taken x).testSwitch sc now = s.taken x := testSwitch_of_pending (s := s.taken x) hw (by
      rw [hlead]
      exact fun hk => h.elim (fun hn => hn.1 hk.1) fun hn => absurd hk.2 (Nat.not_le.2 hn.2))
    have hrun : (s.taken x).running sc = none := running_of_none (s := s.taken x) hn
    refine congrArg Host.Outcome.next ((hplan (h.elim (fun hn => hn.2) fun hn => by rw [hn.1]; nofun)).trans ?_)
    rw [hstay]
    simp only [State.waitSecond, State.slotSecond, State.preStrikeSecond, hrun]
  · intro entersIdle
    refine ⟨fun y reply tag screen side count j q hy => ?_, fun hi hc hn ho => ?_⟩
    · obtain ⟨rfl, hscreen, hi, rfl⟩ | ⟨rfl, he, ho, hc, rfl⟩ | ⟨rfl, hscreen, hf, hes, hway, rfl⟩ := hy
      · refine ⟨_, congrArg Host.Outcome.next ((abort_of_screen hscreen tag (s.taken (.abort tag screen))).trans
          (if_neg hi)), ?_⟩
        exact (abort_entersIdle hw hs).answered 0x32 tag .done
      · have hidle := runoutSeen_entersIdle (p := sc.proj side) (count := count) (i := i) (r := r) (j := j) (q := q)
          (w := w) (s := s)
        rw [proj_screen, proj_side] at hidle
        exact ⟨_, rfl, hidle hw hs he ho hc⟩
      · have run : exec (.resume tag screen) s = .next (resumeScreen tag sc (s.taken (.resume tag screen))) :=
          congrArg Host.Outcome.next (resume_of_screen hscreen tag _)
        obtain ⟨hi, hc, hn, ho⟩ | ⟨hi, h, hh, hp, hn⟩ := hway
        · have hres := (resumeScreen_of_interval (s := s.taken (.resume tag screen)) (tag := tag) hf hi hc).trans
            (resumeInterval_of_no_reel hes fun k o hk => by cases hn.symm.trans hk)
          rw [hres] at run
          refine ⟨_, run, EntersIdle.answered ?_ 0x31 tag .done⟩
          exact endInterval_entersIdle (t := s.taken (.resume tag screen)) (n := c.countdown) hw hs rfl rfl rfl rfl hn
            ho
            (Moves.refl (s.taken (.resume tag screen))).endInterval.seen
        · rw [resumeScreen_of_after (s := s.taken (.resume tag screen)) hf hes hi hh hp] at run
          exact ⟨_, run, resumeAfter_entersIdle hw hs hn⟩
    · have hsec := intervalSecond_of_last (s := s.taken x) (sc := sc) hi hc
      have hmoves := (Moves.refl (sc := sc) (s.taken x)).intervalSecond
      rw [hsec] at hmoves
      have hidle := endInterval_entersIdle (s := s) (w := w) (i := i) (r := r)
        (t := (s.taken x).modShc sc fun c => { c with countdown := c.countdown - 1 }) (n := c.countdown - 1) hw hs
        (Quad.get_set_self ..) rfl rfl rfl hn ho hmoves.seen
      refine ⟨_, hidle, congrArg Host.Outcome.next ?_⟩
      generalize ((s.taken x).modShc sc fun c => { c with countdown := c.countdown - 1 }).endInterval sc =
        t at hidle hsec
      have htaken : ({ t with events := x :: t.events } : State).taken x = t := by
        unfold State.taken
        rw [List.erase_cons_head]
      have hstay : t.intervalSecond sc = t := intervalSecond_of_other (.inl (by rw [hidle.2.1]; nofun))
      show boothSecond sc now (s.taken x) = boothSecond sc now (({ t with events := x :: t.events } : State).taken x)
      rw [htaken]
      unfold boothSecond
      rw [hsec, hstay]

end Sys2Proof.Machine
end

section
namespace Sys2Proof.Machine

variable {sc : Screen} {c : Shc} {s t u : State} {p : Proj} {i j n f time : Nat} {r q : Reel} {v : Trm} {w : CueWindow}
  {es es' : List Instr} {l : Option Nat}

/-! ## The work of a tach pulse at its transport (R80, R81, R86, R87)

`Pulsed p x es s t`: from `s` to `t` the transport of `p` has become `x`, the events `es` have been raised and notices
have been given. -/

structure Pulsed (p : Proj) (x : Trm) (es : List Instr) (s t : State) : Prop where
  keeps : KeepsAllBut s t [.events, .cnl, .trm p]
  noted : Noted s.cnl t.cnl
  trm : t.trm.get p = x
  events : t.events = s.events ++ es

namespace Pulsed

variable {x y : Trm}

theorem refl (s : State) (p : Proj) : Pulsed p (s.trm.get p) [] s s :=
  ⟨KeepsAllBut.refl _ _, Noted.refl _, rfl, by simp⟩

theorem trans (h : Pulsed p x es s t) (k : Pulsed p y es' t u) : Pulsed p y (es ++ es') s u :=
  ⟨h.keeps.trans k.keeps, h.noted.trans k.noted, k.trm, by rw [k.events, h.events, List.append_assoc]⟩

theorem modTrm (h : Pulsed p x es s t) (g : Trm → Trm) : Pulsed p (g x) es s (t.modTrm p g) :=
  ⟨h.keeps.trans ((keeps_modTrm t p g).mono (by simp)), h.noted,
    by rw [← h.trm, State.modTrm, Oct.get_set_self], h.events⟩

theorem emit (h : Pulsed p x es s t) (e : Instr) : Pulsed p x (es ++ [e]) s (t.emit e) :=
  ⟨h.keeps.trans ((keeps_emit t e).mono (by simp)), h.noted, h.trm, by
    rw [State.emit, h.events, List.append_assoc]⟩

theorem note (h : Pulsed p x es s t) (b : NoticeBody) : Pulsed p x es s (t.note b) :=
  ⟨h.keeps.trans ((keeps_note t b).mono (by simp)), h.noted.trans ⟨[_], rfl⟩, h.trm, h.events⟩

end Pulsed

/-! ### The measure of the speed (R81) -/

/-- R81: the transport at a pulse of the time `time`, its frame rate `f`. -/
def Trm.measured (v : Trm) (time f : Nat) : Trm :=
  match v.lastPulse with
  | none => { v with lastPulse := some time }
  | some z =>
    let v' := { v with lastPulse := some time, lastPeriod := some (min 65535 (time - z)) }
    if v.state = .runUp then
      if v.runAfter (time - z) f < 12 then { v' with goodRun := v.runAfter (time - z) f }
      else { v' with goodRun := 12, state := .atSpeed, runUpTimer := false, stallTimer := true }
    else v'

theorem measure_pulsed (s : State) (p : Proj) (time : Nat) :
    ∃ es, Pulsed p ((s.trm.get p).measured time (s.shc.get p.screen).setup.f) es s (s.measure p time) ∧
      ∀ z, (s.trm.get p).state = .runUp → (s.trm.get p).lastPulse = some z →
        12 ≤ (s.trm.get p).runAfter (time - z) (s.shc.get p.screen).setup.f →
        .atSpeedEvent p (s.trm.get p).count ∈ es := by
  have h0 := Pulsed.refl s p
  unfold State.measure Trm.measured
  dsimp only
  cases hz : (s.trm.get p).lastPulse with
  | none => exact ⟨_, h0.modTrm fun t => { t with lastPulse := some time }, fun z _ hk => by cases hk⟩
  | some z =>
    have h1 := h0.modTrm fun t => { t with lastPulse := some time, lastPeriod := some (min 65535 (time - z)) }
    dsimp only
    by_cases hr : (s.trm.get p).state = .runUp
    · by_cases hg : (s.trm.get p).runAfter (time - z) (s.shc.get p.screen).setup.f < 12
      · rw [if_pos hr, if_pos hr, if_pos hg, State.modTrm_shc, if_pos (show _ < Config.goodPeriods from hg)]
        exact ⟨_, h1.modTrm fun t =>
            { t with goodRun := (s.trm.get p).runAfter (time - z) (s.shc.get p.screen).setup.f }, fun z' _ hz' hk => by
          cases hz'
          exact absurd hg (Nat.not_lt.2 hk)⟩
      · rw [if_pos hr, if_pos hr, if_neg hg, State.modTrm_shc, if_neg (show ¬_ < Config.goodPeriods from hg)]
        have h2 := (h1.modTrm fun t => { t with
          goodRun := 12, state := .atSpeed, runUpTimer := false, stallTimer := true }).emit
            (.atSpeedEvent p (s.trm.get p).count)
        exact ⟨_, h2, fun _ _ _ _ => by simp⟩
    · rw [if_neg hr, if_neg hr]
      exact ⟨_, h1, fun _ hk => absurd hk hr⟩

/-! ### The window, the picture end and the stop limit (R80, R86, R87) -/

/-- R80 step 4: the window at a count just reached. -/
def Trm.windowed (v : Trm) : Trm := if ∃ w, v.window = some w ∧ v.count = w.last then { v with window := none } else v

theorem windowPulse_pulsed (s : State) (p : Proj) :
    ∃ es, Pulsed p ((s.trm.get p).windowed) es s (s.windowPulse p) ∧
      ∀ w, (s.trm.get p).window = some w → (s.trm.get p).count = w.last →
        .cueFiredEvent p w.cue .counted (s.trm.get p).count ∈ es := by
  have h0 := Pulsed.refl s p
  unfold State.windowPulse Trm.windowed
  cases hw : (s.trm.get p).window with
  | none => exact ⟨_, by simpa using h0, fun w hk => by cases hk⟩
  | some w =>
    dsimp only
    by_cases hc : (s.trm.get p).count = w.last
    · rw [if_pos hc, if_pos ⟨w, rfl, hc⟩]
      refine ⟨_, ((h0.modTrm fun t => { t with window := none }).emit _).note _, fun w' hk _ => ?_⟩
      obtain rfl := Option.some.inj hk
      simp
    · rw [if_neg hc, if_neg fun ⟨w', hk, hk'⟩ => hc (Option.some.inj hk ▸ hk')]
      exact ⟨_, h0, fun w' hk hk' => absurd (Option.some.inj hk ▸ hk') hc⟩

/-- R86: the transport at the end of its picture. -/
def Trm.ended (v : Trm) : Trm := if v.runLength = some v.count then { v with window := none } else v

theorem endPulse_pulsed (s : State) (p : Proj) :
    ∃ es, Pulsed p ((s.trm.get p).ended) es s (s.endPulse p) ∧
      ((s.trm.get p).runLength = some (s.trm.get p).count → .pictureEndReached p (s.trm.get p).count ∈ es) := by
  have h0 := Pulsed.refl s p
  unfold State.endPulse Trm.ended
  by_cases hc : (s.trm.get p).runLength = some (s.trm.get p).count
  · rw [if_pos hc, if_pos hc]
    exact ⟨_, (h0.modTrm fun t => { t with window := none }).emit _, fun _ => by simp⟩
  · rw [if_neg hc, if_neg hc]
    exact ⟨_, h0, fun hk => absurd hk hc⟩

/-- R87: the transport at its stop limit. -/
def Trm.limited (v : Trm) (l : Option Nat) : Trm := if ∃ n, l = some n ∧ n ≤ v.count then v.stop else v

theorem limitPulse_pulsed (s : State) (p : Proj) :
    ∃ es, Pulsed p ((s.trm.get p).limited (s.stopLimit p)) es s (s.limitPulse p) ∧
      ∀ n, s.stopLimit p = some n → n ≤ (s.trm.get p).count → .runoutReached p (s.trm.get p).count ∈ es := by
  have h0 := Pulsed.refl s p
  unfold State.limitPulse Trm.limited
  cases hl : s.stopLimit p with
  | none => exact ⟨_, by simpa using h0, fun n hk => by cases hk⟩
  | some n =>
    dsimp only
    by_cases hn : n ≤ (s.trm.get p).count
    · rw [if_pos hn, if_pos ⟨n, rfl, hn⟩]
      exact ⟨_, (h0.modTrm Trm.stop).emit _, fun _ _ _ => by simp⟩
    · rw [if_neg hn, if_neg fun ⟨n', hk, hk'⟩ => hn (Option.some.inj hk ▸ hk')]
      exact ⟨_, h0, fun n' hk hk' => absurd (Option.some.inj hk ▸ hk') hn⟩

/-! ### The transport after a pulse -/

/-- R80 steps 2 to 5: the transport after a pulse short of its stop limit. -/
def Trm.pulsed (v : Trm) (rises : Bool) (time f : Nat) : Trm :=
  if rises then ((v.measured time f).restartStall).windowed.ended else (v.measured time f).restartStall

theorem windowed_record (v : Trm) : v.windowed = { v with window := v.windowed.window } := by
  unfold Trm.windowed
  split <;> rfl

theorem ended_window (v : Trm) : v.ended = { v with window := v.ended.window } := by
  unfold Trm.ended
  split <;> rfl

theorem restartStall_record (v : Trm) : v.restartStall = { v with stallTimer := v.restartStall.stallTimer } := by
  unfold Trm.restartStall
  split <;> rfl

/-- R80: a pulse leaves the measure of the speed and the window to be told. -/
theorem pulsed_record (v : Trm) (rises : Bool) (time f : Nat) : v.pulsed rises time f = { v.measured time f with
    stallTimer := (v.measured time f).restartStall.stallTimer, window := (v.pulsed rises time f).window } := by
  unfold Trm.pulsed
  split
  · rw [ended_window, windowed_record, restartStall_record]
  · rw [restartStall_record]

theorem measured_record (v : Trm) (time f : Nat) : v.measured time f = { v with
    lastPulse := some time, lastPeriod := (v.measured time f).lastPeriod, goodRun := (v.measured time f).goodRun
    state := (v.measured time f).state, runUpTimer := (v.measured time f).runUpTimer
    stallTimer := (v.measured time f).stallTimer } := by
  unfold Trm.measured
  split
  · rfl
  · dsimp only
    split_ifs <;> rfl

/-- R80: what a pulse leaves of the transport. -/
theorem pulsed_same (v : Trm) (rises : Bool) (time f : Nat) : (v.pulsed rises time f).runLength = v.runLength ∧
    (v.pulsed rises time f).count = v.count ∧ (v.pulsed rises time f).lastPulse = some time ∧
    (v.pulsed rises time f).stray = v.stray ∧ (v.pulsed rises time f).loopClosed = v.loopClosed ∧
    (v.pulsed rises time f).motor = v.motor ∧
    (v.pulsed rises time f).lastPeriod = (v.measured time f).lastPeriod ∧
    (v.pulsed rises time f).state = (v.measured time f).state ∧
    (v.pulsed rises time f).goodRun = (v.measured time f).goodRun ∧
    (v.pulsed rises time f).runUpTimer = (v.measured time f).runUpTimer ∧
    (v.pulsed rises time f).stallTimer = (v.measured time f).restartStall.stallTimer := by
  rw [pulsed_record, measured_record]
  exact ⟨rfl, rfl, rfl, rfl, rfl, rfl, rfl, rfl, rfl, rfl, rfl⟩

theorem restartStall_of_speed (h : v.state = .atSpeed) : v.restartStall.stallTimer = true := by
  unfold Trm.restartStall
  rw [if_pos h]

theorem measured_state (v : Trm) (time f : Nat) :
    (v.state ≠ .stopped → (v.measured time f).state ≠ .stopped) ∧
      (v.state = .atSpeed → (v.measured time f).state = .atSpeed) := by
  unfold Trm.measured
  split
  · exact ⟨id, id⟩
  · dsimp only
    split_ifs with hr hg
    · exact ⟨id, id⟩
    · exact ⟨fun _ => by simp, fun _ => rfl⟩
    · exact ⟨id, id⟩

theorem measured_lastPeriod (v : Trm) (time f : Nat) :
    (∀ z, v.lastPulse = some z → (v.measured time f).lastPeriod = some (min 65535 (time - z))) ∧
      (v.lastPulse = none → (v.measured time f).lastPeriod = v.lastPeriod) := by
  unfold Trm.measured
  split
  · next h => simp [h]
  · next z h =>
    rw [h]
    refine ⟨fun z' hz => ?_, fun hn => by cases hn⟩
    cases hz
    dsimp only
    split_ifs <;> rfl

/-- R81: a run-up without a period to measure. -/
theorem measured_of_first (h : v.lastPulse = none) (time f : Nat) :
    v.measured time f = { v with lastPulse := some time } := by
  unfold Trm.measured
  rw [h]

/-- R81: the twelfth good period in a row. -/
theorem measured_of_speed {z : Nat} (h : v.lastPulse = some z) (hr : v.state = .runUp)
    (hg : 12 ≤ v.runAfter (time - z) f) : v.measured time f = { v with
      lastPulse := some time, lastPeriod := some (min 65535 (time - z)), goodRun := 12, state := .atSpeed
      runUpTimer := false, stallTimer := true } := by
  unfold Trm.measured
  rw [h]
  dsimp only
  rw [if_pos hr, if_neg (Nat.not_lt.2 hg)]

/-- R81: a period of a run-up. -/
theorem measured_of_run {z : Nat} (h : v.lastPulse = some z) (hr : v.state = .runUp)
    (hg : v.runAfter (time - z) f < 12) : v.measured time f = { v with
      lastPulse := some time, lastPeriod := some (min 65535 (time - z)), goodRun := v.runAfter (time - z) f } := by
  unfold Trm.measured
  rw [h]
  dsimp only
  rw [if_pos hr, if_pos hg]

theorem inTolerance_iff (period f : Nat) : inTolerance period f = true ↔ 960000 ≤ period * f ∧ period * f ≤ 1040000 := by
  rw [inTolerance, Bool.and_eq_true, decide_eq_true_iff, decide_eq_true_iff] <;> rfl

/-- R80 steps 4 to 6 close the window that they fire, or that the picture's end finds. -/
theorem pulsed_window (v : Trm) (time f : Nat)
    (h : v.runLength = some v.count ∨ ∃ w, v.window = some w ∧ v.count = w.last) :
    (v.pulsed true time f).window = none := by
  have hrec : (v.measured time f).restartStall = { v.measured time f with
      stallTimer := (v.measured time f).restartStall.stallTimer } := restartStall_record _
  have hv := measured_record v time f
  unfold Trm.pulsed
  rw [if_pos rfl]
  generalize (v.measured time f).restartStall = x at hrec
  generalize v.measured time f = y at hrec hv
  have hx : x.runLength = v.runLength ∧ x.count = v.count ∧ x.window = v.window := by
    rw [hrec, hv]
    exact ⟨rfl, rfl, rfl⟩
  obtain ⟨hl, hc, hw⟩ := hx
  unfold Trm.ended
  split
  · rfl
  · next hn =>
    rw [windowed_record] at hn
    obtain h | ⟨w, hk, hk'⟩ := h
    · exact absurd (by rw [hl, hc, h]) hn
    · unfold Trm.windowed
      rw [if_pos ⟨w, hw.trans hk, hc.trans hk'⟩]

/-! ### The pulse (R80) -/

/-- R80 steps 2 to 6: what a pulse does after the advance of the count. -/
def State.pulseRest (s : State) (p : Proj) (rises : Bool) (time : Nat) : State :=
  let s := (s.measure p time).modTrm p Trm.restartStall
  let s := if rises then (s.windowPulse p).endPulse p else s
  s.limitPulse p

theorem pulseRest_pulsed (s : State) (p : Proj) (rises : Bool) (time : Nat) (hv : s.trm.get p = v)
    (hf : (s.shc.get p.screen).setup.f = f) (hl : s.stopLimit p = l) :
    ∃ es, Pulsed p ((v.pulsed rises time f).limited l) es s (s.pulseRest p rises time) ∧
      (∀ z, v.state = .runUp → v.lastPulse = some z → 12 ≤ v.runAfter (time - z) f → .atSpeedEvent p v.count ∈ es) ∧
      (rises = true → v.runLength = some v.count → .pictureEndReached p v.count ∈ es) ∧
      (rises = true → ∀ w, v.window = some w → v.count = w.last → .cueFiredEvent p w.cue .counted v.count ∈ es) ∧
      (∀ n, l = some n → n ≤ v.count → .runoutReached p v.count ∈ es) := by
  subst hv hf hl
  obtain ⟨es1, h1, hspeed⟩ := measure_pulsed s p time
  have h2 := h1.modTrm Trm.restartStall
  have hrec : (((s.trm.get p).measured time (s.shc.get p.screen).setup.f).restartStall) = { s.trm.get p with
      lastPulse := some time
      lastPeriod := ((s.trm.get p).measured time (s.shc.get p.screen).setup.f).lastPeriod
      goodRun := ((s.trm.get p).measured time (s.shc.get p.screen).setup.f).goodRun
      state := ((s.trm.get p).measured time (s.shc.get p.screen).setup.f).state
      runUpTimer := ((s.trm.get p).measured time (s.shc.get p.screen).setup.f).runUpTimer
      stallTimer := ((s.trm.get p).measured time (s.shc.get p.screen).setup.f).restartStall.stallTimer } := by
    rw [restartStall_record, measured_record]
  have htrm := h2.trm
  generalize hx : ((s.trm.get p).measured time (s.shc.get p.screen).setup.f).restartStall = x at h2 hrec htrm
  generalize hy : (s.measure p time).modTrm p Trm.restartStall = y at h2 htrm
  have hsame : x.runLength = (s.trm.get p).runLength ∧ x.count = (s.trm.get p).count ∧
      x.window = (s.trm.get p).window := by
    rw [hrec]
    exact ⟨rfl, rfl, rfl⟩
  obtain ⟨hrun, hcount, hwin⟩ := hsame
  have hmid : ∃ es, Pulsed p ((s.trm.get p).pulsed rises time (s.shc.get p.screen).setup.f) es y
      (if rises then (y.windowPulse p).endPulse p else y) ∧
      (rises = true → (s.trm.get p).runLength = some (s.trm.get p).count →
        .pictureEndReached p (s.trm.get p).count ∈ es) ∧
      (rises = true → ∀ w, (s.trm.get p).window = some w → (s.trm.get p).count = w.last →
        .cueFiredEvent p w.cue .counted (s.trm.get p).count ∈ es) := by
    unfold Trm.pulsed
    rw [hx]
    cases rises with
    | false => exact ⟨_, htrm ▸ Pulsed.refl y p, nofun, nofun⟩
    | true =>
      obtain ⟨es2, h3, hfired⟩ := windowPulse_pulsed y p
      obtain ⟨es3, h4, hended⟩ := endPulse_pulsed (y.windowPulse p) p
      rw [h3.trm] at h4 hended
      rw [htrm] at h3 h4 hfired hended
      have hkeep : x.windowed.runLength = x.runLength ∧ x.windowed.count = x.count := by
        rw [windowed_record]
        exact ⟨rfl, rfl⟩
      rw [hkeep.1, hkeep.2, hrun, hcount] at hended
      rw [hwin, hcount] at hfired
      refine ⟨_, h3.trans h4, fun _ he => List.mem_append_right _ (hended he), fun _ w hw hc =>
        List.mem_append_left _ (hfired w hw hc)⟩
  obtain ⟨es2, h3, hended, hfired⟩ := hmid
  have heq : s.pulseRest p rises time = (if rises then (y.windowPulse p).endPulse p else y).limitPulse p := by
    rw [← hy]
    rfl
  rw [heq]
  generalize (if rises then (y.windowPulse p).endPulse p else y) = z at h3
  obtain ⟨es3, h4, hout⟩ := limitPulse_pulsed z p
  have hz := h2.trans h3
  have hlimit : z.stopLimit p = s.stopLimit p := by
    have hshc : z.shc.get p.screen = s.shc.get p.screen := hz.keeps (.shc p.screen) (by simp)
    unfold State.stopLimit
    rw [hshc, h3.trm, (pulsed_same _ _ _ _).1]
  rw [hlimit, h3.trm] at h4 hout
  rw [(pulsed_same _ _ _ _).2.1] at hout
  exact ⟨_, hz.trans h4, fun z' hr hz' hg => List.mem_append_left _ (List.mem_append_left _ (hspeed z' hr hz' hg)),
    fun hr he => List.mem_append_left _ (List.mem_append_right _ (hended hr he)),
    fun hr w hw hc => List.mem_append_left _ (List.mem_append_right _ (hfired hr w hw hc)),
    fun n hn hle => List.mem_append_right _ (hout n hn hle)⟩

theorem countPulse_eq (s : State) (p : Proj) (time : Nat) : s.countPulse p time =
    (if s.countRises p then countAdvanced p (s.modTrm p fun t => { t with count := t.count + 1 }) else s).pulseRest p
      (s.countRises p) time := rfl

/-! ### The advance of the count (R77) -/

/-- The events of a screen keep its setup. -/
theorem Moves.setup (h : Moves sc s t) : (t.shc.get sc).setup = (s.shc.get sc).setup := by
  induction h with
  | refl => rfl
  | @tail u v _ m ih =>
    rw [← ih]
    cases m with
    | shc g hg => rw [State.modShc, Quad.get_set_self]; exact (hg _).1
    | strike side _ => exact congrArg Shc.setup ((beginStrike_spec u (sc.proj side) .struck).2.2 (.shc sc) (by simp))
    | out side =>
      exact congrArg Shc.setup ((putOut_spec u (sc.proj side) (.extinguished .show_)).2.2 (.shc sc) (by simp))
    | _ => rfl

/-- The transport after the count has advanced. -/
def Trm.counted (v : Trm) (rises : Bool) : Trm := if rises then { v with count := v.count + 1 } else v

theorem mem_screenParts_own (p : Proj) : Part.trm p ∈ screenParts p.screen := by
  simpa [screen_proj] using mem_screenParts_trm p.screen p.side

theorem counted_same (v : Trm) (rises : Bool) : v.counted rises = { v with count := (v.counted rises).count } := by
  cases rises <;> rfl

/-- R87: what the stop at a limit leaves. -/
theorem limited_same (v : Trm) (l : Option Nat) : (v.limited l).count = v.count ∧
    (v.limited l).lastPulse = v.lastPulse ∧
    (v.limited l).runLength = v.runLength ∧ (v.limited l).stray = v.stray ∧
    (v.limited l).loopClosed = v.loopClosed ∧ (v.limited l).lastPeriod = v.lastPeriod ∧
    (v.window = none → (v.limited l).window = none) := by
  unfold Trm.limited Trm.stop
  split_ifs <;> simp

theorem limited_of_over {n : Nat} (hl : l = some n) (hn : n ≤ v.count) : v.limited l = v.stop := if_pos ⟨n, hl, hn⟩

theorem limited_of_short (h : ∀ n, l = some n → v.count < n) : v.limited l = v :=
  if_neg fun ⟨n, hl, hn⟩ => Nat.not_lt.2 hn (h n hl)

/-- R77: the advance of the count, and what the SHC makes of it. -/
theorem advanced_spec (s : State) (p : Proj) (rises : Bool) (hs : (s.trm.get p).state ≠ .stopped) :
    let y := if rises then countAdvanced p (s.modTrm p fun t => { t with count := t.count + 1 }) else s
    KeepsAllBut s y (screenParts p.screen) ∧ Noted s.cnl y.cnl ∧ (∃ es, y.events = s.events ++ es) ∧
      y.trm.get p = (s.trm.get p).counted rises ∧ (y.shc.get p.screen).setup = (s.shc.get p.screen).setup := by
  cases rises with
  | false => exact ⟨KeepsAllBut.refl _ _, Noted.refl _, ⟨[], by simp⟩, rfl, rfl⟩
  | true =>
    intro y
    have hm : Moves p.screen (s.modTrm p fun t => { t with count := t.count + 1 }) y := (Moves.refl _).countAdvanced
    have htrm : (s.modTrm p fun t => { t with count := t.count + 1 }).trm.get p = (s.trm.get p).counted true :=
      Oct.get_set_self ..
    refine ⟨((keeps_modTrm s p _).mono (by simpa using mem_screenParts_own p)).trans hm.keeps, hm.noted, hm.events,
      ?_, hm.setup⟩
    refine hm.trm_inv (P := fun v => v = (s.trm.get p).counted true) (fun x lp hx he => ?_) p htrm
    rw [he] at hx
    exact absurd hx hs

/-- R32: the advance of the count at which a picture goes on. -/
theorem countAdvanced_of_ready (hst : (s.shc.get p.screen).state = .preparing)
    (hr : ((s.shc.get p.screen).entry (s.shc.get p.screen).current).kind = .reel r) (hside : r.side = p.side)
    (hk : (s.shc.get p.screen).prep ≠ .resume) (ht : (s.trm.get p).state = .atSpeed)
    (hl : (s.shc.get p.screen).setup.l0 ≤ (s.trm.get p).count) :
    countAdvanced p s = s.putPictureOn p.screen (s.shc.get p.screen).current r := by
  unfold countAdvanced
  dsimp only
  rw [preparing_eq_some_iff.2 ⟨hst, hr, rfl⟩]
  exact if_pos ⟨hside, hk, decide_eq_true ht, hl⟩

theorem preparing_eq_none (h : c.state ≠ .preparing) : c.preparing = none := by
  cases hp : c.preparing with
  | none => rfl
  | some x => exact absurd (preparing_eq_some_iff.1 hp).1 h

/-- R34, R59: the advance of the count of the ON_SCREEN reel. -/
theorem countAdvanced_of_showing (hst : (s.shc.get p.screen).state = .showing)
    (ho : (s.shc.get p.screen).holdingOn .onScreen p.side = some (i, r)) : countAdvanced p s =
      match (s.shc.get p.screen).strikeFrame with
      | some x => if x ≤ (s.trm.get p).count then
          (s.lightReached p.screen r (s.trm.get p).count).makeStrike p.screen
        else s.lightReached p.screen r (s.trm.get p).count
      | none => s.lightReached p.screen r (s.trm.get p).count := by
  unfold countAdvanced
  dsimp only
  rw [preparing_eq_none (by rw [hst]; nofun), ho] <;> rfl

/-- R34: a lighting point posted changes no machine and no record. -/
theorem Acts.lightReached (s : State) (sc : Screen) (r : Reel) (n : Nat) :
    ∃ es, Acts [] sc (s.shc.get sc) es s (s.lightReached sc r n) := by
  have h := Acts.start (l := []) (sc := sc) s
  unfold State.lightReached State.postPoint
  split
  · exact ⟨_, h.postShow _⟩
  · exact ⟨_, h⟩

theorem lightReached_events {x : LightPoint} (hx : lastPoint (fun y => y.offset = n) r.points = some x) :
    (s.lightReached sc r n).events = s.events ++ [.post sc .show_ x.preset] := by
  unfold State.lightReached
  rw [hx]
  rfl

/-- R59: the strike made for an ARMED incoming. -/
theorem makeStrike_of_armed (ha : (s.shc.get sc).holding .armed = some (j, q)) :
    s.makeStrike sc = (s.dropStrikeFrame sc).strikeIncoming sc j q := by
  have hheld : ((s.dropStrikeFrame sc).shc.get sc).holding .armed = some (j, q) := by
    rw [State.dropStrikeFrame, State.modShc, Quad.get_set_self]
    exact ha
  unfold State.makeStrike
  dsimp only
  rw [hheld]

/-- Settles O43: the transport after the pulse, and what the SHC does at the advance of the count. -/
theorem tachPulseCountsOneFrame : Obligations.TachPulseCountsOneFrame := by
  refine ⟨fun p time s => ?_, fun p time s => ?_⟩
  · intro t x limit rises
    refine ⟨fun hm => congrArg Host.Outcome.next (if_neg (show ¬t.motor = true by simp [hm])), fun hm hst => ?_⟩
    have run : exec (.tachPulse p time) s = _ :=
      congrArg Host.Outcome.next ((if_pos hm).trans (countPulse_eq s p time))
    have hrises : s.countRises p = true ↔ rises := decide_eq_true_iff
    obtain ⟨hkeep, hnoted, ⟨es0, hev⟩, htrm, hsetup⟩ := advanced_spec s p (s.countRises p) hst
    generalize (if s.countRises p then countAdvanced p (s.modTrm p fun t => { t with count := t.count + 1 }) else s) = y
      at run hkeep hnoted hev htrm hsetup
    have hlimit : y.stopLimit p = limit := by
      unfold State.stopLimit
      rw [htrm, hsetup]
      cases s.countRises p <;> rfl
    obtain ⟨es1, hrest, hspeed, hended, hfired, hout⟩ :=
      pulseRest_pulsed y p (s.countRises p) time htrm (congrArg ScreenSetup.f hsetup) hlimit
    refine ⟨_, es0 ++ es1, run, ?_, hnoted.trans hrest.noted, by rw [hrest.events, hev, List.append_assoc], ?_⟩
    · refine hkeep.trans (hrest.keeps.mono ?_)
      simpa [screenParts] using mem_screenParts_own p
    · intro v
      have hv : v = _ := hrest.trm
      generalize hm1 : t.counted (s.countRises p) = m at htrm hspeed hended hfired hout hv
      have hmt : m = { t with count := m.count } := by rw [← hm1]; exact counted_same t _
      obtain ⟨hlen, hcnt, hlp, hstray, hloop, hmotor, hper, hstate, hgood, hrun, hstall⟩ :=
        pulsed_same m (s.countRises p) time x.f
      have hwindow := pulsed_window m time x.f
      obtain ⟨kcnt, klp, klen, kstray, kloop, kper, kwin⟩ := limited_same (m.pulsed (s.countRises p) time x.f) limit
      have hstopped := (measured_state m time x.f).1 (by rw [hmt]; exact hst)
      have hcount : v.count = m.count := by rw [hv, kcnt, hcnt]
      refine ⟨fun hr => ?_, fun hr => ?_, ?_, ?_, ?_, ?_, fun z hz => ?_, fun hz => ?_, fun l hl hle => ?_,
        fun hshort => ?_, fun hr hl => ?_, fun hr w hw hl => ?_⟩
      · rw [hcount, ← hm1, hrises.2 hr]
        rfl
      · rw [hcount, ← hm1, show s.countRises p = false by simpa using mt hrises.1 hr]
        rfl
      · rw [hv, klp, hlp]
      · rw [hv, klen, hlen, hmt]
      · rw [hv, kstray, hstray, hmt]
      · rw [hv, kloop, hloop, hmt]
      · rw [hv, kper, hper]
        exact (measured_lastPeriod m time x.f).1 z (by rw [hmt]; exact hz)
      · rw [hv, kper, hper, (measured_lastPeriod m time x.f).2 (by rw [hmt]; exact hz), hmt]
      · have hstop : v = (m.pulsed (s.countRises p) time x.f).stop := by
          rw [hv]
          exact limited_of_over hl (by rw [hcnt, ← hcount]; exact hle)
        have hreached := hout l hl (by rw [← hcount]; exact hle)
        rw [← hcount] at hreached
        refine ⟨?_, ?_, ?_, List.mem_append_right _ hreached⟩ <;>
          rw [hstop, stop_of_running (by rw [hstate]; exact hstopped)]
      · have hshort' : v = m.pulsed (s.countRises p) time x.f := by
          rw [hv]
          exact limited_of_short fun n hn => by rw [hcnt, ← hcount]; exact hshort n hn
        have hsame : m.motor = t.motor ∧ m.state = t.state ∧ m.lastPulse = t.lastPulse ∧ m.goodRun = t.goodRun := by
          rw [hmt]
          exact ⟨rfl, rfl, rfl, rfl⟩
        obtain ⟨mmotor, mstate, mpulse, mgood⟩ := hsame
        have hrunAfter (period : Nat) : m.runAfter period x.f = if inTolerance period x.f then t.goodRun + 1 else 0 := by
          rw [← mgood]
          rfl
        rw [hshort', hmotor, hstate, hgood, hrun, hstall]
        refine ⟨mmotor.trans hm, fun ha => ?_, fun z hr hz => ⟨fun htol => ?_, fun htol => ?_⟩, fun hr hz => ?_⟩
        · have hat := (measured_state m time x.f).2 (mstate.trans ha)
          exact ⟨hat, restartStall_of_speed hat⟩
        · have hafter : m.runAfter (time - z) x.f = t.goodRun + 1 :=
            (hrunAfter _).trans (if_pos ((inTolerance_iff _ _).2 htol))
          refine ⟨fun hlt => ?_, fun hge => ?_⟩
          · rw [measured_of_run (mpulse.trans hz) (mstate.trans hr) (by rw [hafter]; exact hlt)]
            exact ⟨mstate.trans hr, hafter⟩
          · have hreached := hspeed z (mstate.trans hr) (mpulse.trans hz) (by rw [hafter]; exact hge)
            rw [measured_of_speed (mpulse.trans hz) (mstate.trans hr) (by rw [hafter]; exact hge)]
            refine ⟨rfl, rfl, rfl, rfl, List.mem_append_right _ ?_⟩
            rw [hcnt]
            exact hreached
        · have hafter : m.runAfter (time - z) x.f = 0 :=
            (hrunAfter _).trans (if_neg (by rw [inTolerance_iff]; exact htol))
          rw [measured_of_run (mpulse.trans hz) (mstate.trans hr) (by rw [hafter]; omega)]
          exact ⟨mstate.trans hr, hafter⟩
        · rw [measured_of_first (mpulse.trans hz)]
          exact ⟨mstate.trans hr, mgood⟩
      · rw [hrises.2 hr] at hended kwin hv
        have hend : m.runLength = some m.count := by rw [hmt, ← hcount]; exact hl
        have hreached := hended rfl hend
        rw [← hcount] at hreached
        exact ⟨List.mem_append_right _ hreached, by rw [hv]; exact kwin (hwindow (.inl hend))⟩
      · rw [hrises.2 hr] at hfired kwin hv
        have hlast : m.count = w.last := by
          rw [← hcount, hl]
          unfold CueWindow.last lastFrame
          cases w.mode <;> rfl
        have hmw : m.window = some w := by rw [hmt]; exact hw
        have hreached := hfired rfl w hmw hlast
        rw [← hcount] at hreached
        exact ⟨List.mem_append_right _ hreached, by rw [hv]; exact kwin (hwindow (.inr ⟨w, hmw, hlast⟩))⟩
  · intro t sc c n hm hat hn hlen
    have hrises : s.countRises p = true := by
      have hlt : t.count < (s.stopLimit p).getD 65535 := by
        unfold State.stopLimit
        obtain hl | ⟨l, hl, hle⟩ := hlen
        · rw [show (s.trm.get p).runLength = none from hl]
          exact hn
        · rw [show (s.trm.get p).runLength = some l from hl]
          show t.count < min 65535 (l + _)
          omega
      exact decide_eq_true hlt
    have run : exec (.tachPulse p time) s = _ :=
      congrArg Host.Outcome.next ((if_pos hm).trans (countPulse_eq s p time))
    rw [hrises, if_pos rfl] at run
    generalize hz : (s.modTrm p fun t => { t with count := t.count + 1 }) = z at run
    have hrec : z.shc = s.shc ∧ z.alc = s.alc ∧ z.bsu = s.bsu ∧ z.events = s.events := by
      rw [← hz]
      exact ⟨rfl, rfl, rfl, rfl⟩
    obtain ⟨hshc, halc, hbsu, hzev⟩ := hrec
    have htrm : z.trm.get p = { t with count := n } := by
      rw [← hz]
      exact Oct.get_set_self ..
    have hmoves := Moves.countAdvanced (p := p) (Moves.refl z)
    obtain ⟨es0, hev0⟩ := hmoves.events
    obtain ⟨es1, hrest, -⟩ := pulseRest_pulsed (countAdvanced p z) p true time rfl rfl rfl
    have hu : ((countAdvanced p z).pulseRest p true time).shc.get sc = (countAdvanced p z).shc.get sc :=
      hrest.keeps (.shc sc) (by simp)
    have hua (q : Proj) : ((countAdvanced p z).pulseRest p true time).alc.get q = (countAdvanced p z).alc.get q :=
      hrest.keeps (.alc q) (by simp)
    refine ⟨_, es0 ++ es1, run, ?_, fun r hst hr hside hk hl0 => ⟨fun hfm ho hsh hv => ?_, fun hbad => ?_⟩,
      fun i r q hst ho hq => ?_, fun i f j r q hst ho hf hfn ha => ?_, fun i f r hst ho hf hnf => ?_⟩
    · rw [← List.append_assoc, ← hzev, ← hev0]
      exact hrest.events
    · have hready := countAdvanced_of_ready (s := z) (p := p) (r := r) (by rw [hshc]; exact hst)
        (by rw [hshc]; exact hr)
        hside (by rw [hshc]; exact hk) (by rw [htrm]; exact hat) (by rw [hshc, htrm]; exact hl0)
      have hp : sc.proj r.side = p := by rw [hside]; exact screen_proj p
      rw [putPictureOn_of_clear (by rw [hp, hbsu]; exact hsh) (by rw [hp, hbsu]; exact hv)] at hready
      have hon := showPicture_of_first (s := z) (sc := sc) (r := r) (by rw [hshc]; exact hk) (by rw [hshc]; exact hr)
        (by rw [hshc]; exact ho) (by rw [hp, htrm]; exact hfm)
      rw [hu, hready, ← hside]
      exact ⟨hon.state, hon.opened⟩
    · have hready := countAdvanced_of_ready (s := z) (p := p) (r := r) (by rw [hshc]; exact hst)
        (by rw [hshc]; exact hr)
        hside (by rw [hshc]; exact hk) (by rw [htrm]; exact hat) (by rw [hshc, htrm]; exact hl0)
      have hp : sc.proj r.side = p := by rw [hside]; exact screen_proj p
      rw [hu, hready]
      by_cases hsh : (s.bsu.shutters.get p).state = .raised
      · obtain ⟨v, hv⟩ := Option.isSome_iff_exists.1 (hbad.resolve_left (not_not_intro hsh))
        rw [putPictureOn_of_veto (by rw [hp, hbsu]; exact hsh) (by rw [hp, hbsu]; exact hv)]
        exact congrArg Shc.state (haltScreen_haltedBy _ _ _ _).1
      · rw [putPictureOn_of_dropped (by rw [hp, hbsu]; exact hsh)]
        exact congrArg Shc.state (haltScreen_haltedBy _ _ _ _).1
    · have hshow := countAdvanced_of_showing (s := z) (p := p) (by rw [hshc]; exact hst) (by rw [hshc]; exact ho)
      rw [htrm] at hshow
      have hposts := lightReached_events (s := z) (sc := sc) hq
      have hafter : Moves sc (z.lightReached sc r n) (countAdvanced p z) := by
        rw [hshow]
        split
        · split
          · exact (Moves.refl _).makeStrike
          · exact .refl _
        · exact .refl _
      obtain ⟨es2, hes2⟩ := hafter.events
      rw [hev0, hposts, List.append_assoc] at hes2
      rw [List.append_cancel_left hes2]
      simp
    · have hshow := countAdvanced_of_showing (s := z) (p := p) (by rw [hshc]; exact hst) (by rw [hshc]; exact ho)
      rw [htrm, hshc, show (s.shc.get p.screen).strikeFrame = some f from hf] at hshow
      replace hshow := hshow.trans (if_pos hfn)
      obtain ⟨es, hlight⟩ := Acts.lightReached z sc r n
      have hlrec : (z.lightReached sc r n).shc.get sc = c := by rw [hlight.shc, hshc]
      rw [makeStrike_of_armed (by rw [hlrec]; exact ha)] at hshow
      have hdrop := ((Acts.start (l := [.alc (sc.proj q.side)]) (sc := sc) (z.lightReached sc r n)).modShc
        fun c => { c with strikeFrame := none })
      have hdalc : ((z.lightReached sc r n).dropStrikeFrame sc).alc = (z.lightReached sc r n).alc := rfl
      have hdbsu : ((z.lightReached sc r n).dropStrikeFrame sc).bsu = (z.lightReached sc r n).bsu := rfl
      obtain ⟨es2, hstr⟩ := hdrop.strikeIncoming (q := q) (by simp) j
      have hlalc : (z.lightReached sc r n).alc.get (sc.proj q.side) = s.alc.get (sc.proj q.side) := by
        rw [hlight.alc, halc]
      have hlbsu : (z.lightReached sc r n).bsu = s.bsu := Eq.trans (hlight.keeps .bsu (by simp)) hbsu
      rw [hu, hua, hshow]
      refine ⟨congrArg Shc.strikeFrame hstr.shc, fun hd hrem hx hfire => ?_⟩
      have hlit := lit_of_unlit (.inl hd)
      rw [strikeIncoming_of_none (by rw [hdalc, hlalc]; exact hlit) (strikeRefusal_eq_none
        (by rw [hdalc, hlalc]; exact hlit) (by rw [hdalc, hlalc]; exact hrem) (by rw [hdbsu, hlbsu]; exact hx)
        (by rw [hdbsu, hlbsu]; exact hfire))]
      exact beginStrike_striking _ _ _
    · have hshow := countAdvanced_of_showing (s := z) (p := p) (by rw [hshc]; exact hst) (by rw [hshc]; exact ho)
      rw [htrm, hshc, show (s.shc.get p.screen).strikeFrame = some f from hf] at hshow
      replace hshow := hshow.trans (if_neg (Nat.not_le.2 hnf))
      obtain ⟨es, hlight⟩ := Acts.lightReached z sc r n
      rw [hu, hshow, hlight.shc, hshc]

end Sys2Proof.Machine
end
